-- ==== Sys2Proof/Word.lean ====
section
/-! DEFINITION. The words of the 4110: bytes on its lines and the six-bit station number (R2). -/

namespace Sys2Proof

/-- One byte of a telegram, a table or an image. -/
abbrev Byte := BitVec 8

/-- A station number, 0..63; 63 is the broadcast station (R2). -/
abbrev Station := BitVec 6

/-- The broadcast station (R2). -/
def broadcastStation : Station := 63

/-- The opening byte of every telegram (R2). -/
def openingByte : Byte := 0x96

/-- The space byte, which pads comparisons and ends numbers (R39, R44). -/
def spaceByte : Byte := 0x20

end Sys2Proof
end

