-- ==== Sys2Proof/Syntax.lean ====
section
/-! DEFINITION. The commands of the 4110: one constructor for each row of spec/opcode_table.json, with the
operands the outside supplies. A management command has no operand of its own: its arguments stand in the
telegram at the head of MCQ (R164). -/

namespace Sys2Proof

/-- The two lines of the part. -/
inductive Line where
  | trunk
  | field
  deriving DecidableEq, Repr

/-- The level of a wired input (R157). -/
inductive Level where
  | asserted
  | released
  deriving DecidableEq, Repr

/-- The two directions of traffic, and so the two classifiers: the Downstream and the Upstream Classifier. -/
inductive Direction where
  | downstream
  | upstream
  deriving DecidableEq, Repr

/-- One of the four sweep contexts. -/
abbrev SweepId := Fin 4

/-- A character received on a line: a byte, or a broken character, whose stop bit was found at the space level (R1). -/
inductive Rx where
  | byte (b : Byte)
  | broken
  deriving DecidableEq, Repr

/-- One constructor per row of spec/opcode_table.json. -/
inductive Instr where
  /-- POWER_ON_RESET: the straps as they read, and the level of the attention input. -/
  | powerOnReset (straps : Station) (attention : Level)
  /-- TRUNK_TELEGRAM_END: the characters received on the trunk, the last of which ends a telegram. -/
  | trunkTelegramEnd (chars : List Rx)
  | gapLimitExpiry (line : Line)
  | trunkPauseAssert
  | trunkPauseRelease
  | trunkTelegramSent
  | downstreamTake
  | upstreamTake
  /-- HOLD_TIMER_EXPIRY: of the classifier of that direction. -/
  | holdTimerExpiry (classifier : Direction)
  | lineArbiterDecision
  | requestSent
  | openingByteArrives
  /-- FIELD_TELEGRAM_END: the characters received on the field line, the last of which ends a telegram. -/
  | fieldTelegramEnd (chars : List Rx)
  | replyWindowExpiry
  | settleTimerExpiry
  | copyEnd
  | bracketTimerExpiry
  | periodTimerExpiry (sweep : SweepId)
  | attentionAssertion
  | attentionRelease
  | identify
  | status
  | counters
  | configRead
  | configWrite
  | tableReadWindow
  | tableReadEntries
  | tableReadActionRecord
  | tableReadTranslateBytes
  | tableReadDelimiterSet
  | tableReadPatternBytes
  | tableReadSweepItem
  | tableWriteWindow
  | tableWriteEntries
  | tableWriteActionRecord
  | tableWriteTranslateBytes
  | tableWriteDelimiterSet
  | tableWritePatternBytes
  | tableWriteSweepItem
  | publish
  | accRead
  | accSetup
  | accClear
  | sweepLoad
  | sweepStart
  | sweepResume
  | sweepStop
  | sweepRead
  | mailboxTake
  | bracketOpen
  | bracketClose
  | restart
  | unknownCommand
  | newTelegramBegun (line : Line)
  deriving DecidableEq, Repr

end Sys2Proof
end

