-- ==== Sys2Proof/Decode.lean ====
section
/-! DEFINITION. Words of the opcode table. No row of this part's table gives bits, so no word spells a command (log 17). -/

namespace Sys2Proof

/-- The command that a word of `nbits` bits spells by the table: none does. -/
def decodeTableWord (_nbits _w : Nat) : Option Instr := none

end Sys2Proof
end

