-- ==== Sys2Proof/Config.lean ====
section
/-! DEFINITION. The capacities that the manual fixes for the part (R169 gathers them), and the two limits
of an accumulator; and the one free value, for the case in which two rules of the manual say different things. -/

namespace Sys2Proof.Config

/-- The part code IDENTIFY returns (R169). -/
def partCode : Nat := 4110
/-- The revision this manual describes (R169). -/
def revision : Nat := 1

def trqCapacity : Nat := 8
def mcqCapacity : Nat := 4
def tsqCapacity : Nat := 16
def fsqCapacity : Nat := 16
def frqCapacity : Nat := 4
def mailboxCapacity : Nat := 8
def accumulatorCount : Nat := 32
def sweepCount : Nat := 4
def windowsPerDirection : Nat := 4
def entryCount : Nat := 2048
def recordCount : Nat := 256
def translateTableCount : Nat := 4
def delimiterSetCount : Nat := 8
def patternByteCount : Nat := 2048
def itemCount : Nat := 256

/-- The most payload bytes of a telegram (R2). -/
def maxPayload : Nat := 240
/-- The most payload bytes a mailbox entry keeps (R81). -/
def mailboxPayload : Nat := 224

/-- The top of an accumulator's sum (R58). -/
def sumTop : Int := 140737488355327
/-- The bottom of an accumulator's sum (R58). -/
def sumBottom : Int := -140737488355328
/-- 2^48, by which a wrapped total moves (R62). -/
def wrapSpan : Int := 281474976710656

/-- Whether a CONFIG_WRITE that repeats the trunk rate and the gap limit of the record, while a trunk line change waits,
leaves that change as it waits (R173, R174) or has it await the new response (R16). The rules differ there and nothing says
which holds, so the value is free (log 11). -/
opaque repeatLeavesTrunkChange : Bool

end Sys2Proof.Config
end

