-- ==== Sys2Proof/Machine/State.lean ====
section
/-! DEFINITION. The state of the 4110 as plain data, block by block as the block diagram of spec/00_scope.md
gives them, with each block's values after power-on reset. -/

namespace Sys2Proof.Machine

/-! ## Shared shapes -/

/-- Data by index, held sparsely: pairs of rising index, none equal to what an unlisted index reads as. -/
abbrev Sparse (α : Type) := List (Nat × α)

/-- Four like things, numbered 0..3. -/
structure Four (α : Type) where
  a0 : α
  a1 : α
  a2 : α
  a3 : α
  deriving DecidableEq, Repr

/-- A telegram as kept in a queue: its check has been dropped, and its length is the payload's (R9). -/
structure Telegram where
  address : Byte
  function : Byte
  payload : List Byte
  deriving DecidableEq, Repr

/-- A framer's state with the bytes it has taken (R4). -/
inductive Framer where
  | hunt
  | address
  | function (address : Byte)
  | length (address function : Byte)
  | payload (address function length : Byte) (taken : List Byte)
  | check (address function length : Byte) (taken : List Byte) (upper : Option Byte)
  deriving DecidableEq, Repr

/-- How a framer ends a telegram (R3, R4). -/
inductive Ended where
  | good (t : Telegram)
  | corrupt
  | malformed
  deriving DecidableEq, Repr

/-- The eight line rates (R1). -/
inductive Rate where
  | r9600
  | r19200
  | r38400
  | r57600
  | r115200
  | r230400
  | r460800
  | r921600
  deriving DecidableEq, Repr

/-- What a line runs with: its rate and its gap limit in bit times (R1, R5). -/
structure LineSettings where
  rate : Rate
  gap : Nat
  deriving DecidableEq, Repr

/-- The power-on line settings (R16, R17). -/
def LineSettings.powerOn : LineSettings := ⟨.r19200, 33⟩

/-! ## Tables (chapter 6) -/

/-- The number of a table set. -/
inductive SetId where
  | zero
  | one
  deriving DecidableEq, Repr

/-- A dispatch window (R27). -/
structure Window where
  enabled : Bool
  low : Nat
  high : Nat
  base : Nat
  deriving DecidableEq, Repr

/-- A window as power-on leaves it (R102). -/
def Window.powerOn : Window := ⟨false, 0, 0, 0⟩

/-- An entry, and equally a dispatch result (R28, section 12.2). -/
inductive Entry where
  | pass
  | drop
  | action (n : Byte)
  deriving DecidableEq, Repr

/-- A payload span (section 3.2). -/
structure Span where
  offset : Nat
  length : Nat
  deriving DecidableEq, Repr

/-- The fields of a match stage (R34). -/
structure MatchStage where
  span : Span
  pattern : Span
  deriving DecidableEq, Repr

/-- The fields of a translate stage (R34). -/
structure TranslateStage where
  table : Nat
  span : Span
  deriving DecidableEq, Repr

/-- The fields of an extract stage (R34). -/
structure ExtractStage where
  span : Span
  delimiters : Nat
  field : Nat
  decimals : Nat
  deriving DecidableEq, Repr

/-- The fields of a limit stage (R34). -/
structure LimitStage where
  low : Int
  high : Int
  deriving DecidableEq, Repr

/-- The fields of an accumulate stage (R34). -/
structure AccumulateStage where
  base : Nat
  step : Bool
  weight : Int
  scale : Int
  deriving DecidableEq, Repr

/-- The 17 verdict conditions (R73). -/
inductive Condition where
  | always
  | never
  | inLimits
  | outOfLimits
  | below
  | above
  | matchEq
  | matchNe
  | matchLt
  | matchGt
  | valueZero
  | valueNonzero
  | extractFail
  | accOverflow
  | accClean
  | attention
  | notAttention
  deriving DecidableEq, Repr

/-- The four dispositions (R75). -/
inductive Disposition where
  | forward
  | drop
  | copy
  | forwardCopy
  deriving DecidableEq, Repr

/-- A defined action record (R34). -/
structure ActionRecord where
  urgent : Bool
  repeats : Nat
  condition : Condition
  onTrue : Disposition
  onFalse : Disposition
  matching : Option MatchStage
  translate : Option TranslateStage
  extract : Option ExtractStage
  adjust : Option Int
  limit : Option LimitStage
  accumulate : Option AccumulateStage
  deriving DecidableEq, Repr

/-- A defined sweep list item (R89, R99). -/
structure SweepItem where
  station : Station
  function : Byte
  pattern : Span
  deriving DecidableEq, Repr

/-- One table set (R89). The arrays are held sparsely: an unlisted cell reads as its power-on contents (R102). -/
structure TableSet where
  downstream : Four Window
  upstream : Four Window
  entries : Sparse Entry
  records : Sparse (Option ActionRecord)
  /-- Entry v of table t stands at index 256 t + v. -/
  translate : Sparse Byte
  /-- Member v of set s stands at index 256 s + v. -/
  delimiters : Sparse Bool
  pattern : Sparse Byte
  items : Sparse (Option SweepItem)
  deriving DecidableEq, Repr

/-- The power-on contents of either set (R102). -/
def TableSet.powerOn : TableSet where
  downstream := ⟨.powerOn, .powerOn, .powerOn, .powerOn⟩
  upstream := ⟨.powerOn, .powerOn, .powerOn, .powerOn⟩
  entries := []
  records := []
  translate := []
  delimiters := []
  pattern := []
  items := []

/-- The Table Store's states (R91). -/
inductive StoreState where
  | editable
  | draining
  | copying
  deriving DecidableEq, Repr

/-- The Table Store (chapter 6). The holders of each set are read off the consumers (R90). -/
structure TableStore where
  set0 : TableSet
  set1 : TableSet
  live : SetId
  state : StoreState
  publication : BitVec 16
  deriving DecidableEq, Repr

def TableStore.powerOn : TableStore := ⟨.powerOn, .powerOn, .zero, .editable, 0⟩

/-! ## Trunk Port (chapter 1) -/

/-- A telegram waiting in TSQ: the transmitter adds its address byte and check (R13).
`awaited` marks the response whose end a waiting trunk line change waits for (R16). -/
structure TsqEntry where
  function : Byte
  payload : List Byte
  awaited : Bool
  deriving DecidableEq, Repr

/-- The telegram on the trunk transmit pair, byte for byte (R13). -/
structure TrunkSend where
  bytes : List Byte
  awaited : Bool
  deriving DecidableEq, Repr

/-- A waiting trunk line change (R16); `sent` once the awaited response has been fully sent. -/
structure TrunkChange where
  settings : LineSettings
  sent : Bool
  deriving DecidableEq, Repr

structure TrunkPort where
  ownAddress : Station
  framer : Framer
  trq : List Telegram
  mcq : List Telegram
  hold : Bool
  pause : Bool
  tsq : List TsqEntry
  sending : Option TrunkSend
  /-- The head of TSQ has been counted in trunk_pause_waits (R12). -/
  headCounted : Bool
  line : LineSettings
  change : Option TrunkChange
  deriving DecidableEq, Repr

/-- R8, R10, R11, R13, R16; the pause input keeps the level the outside drives. -/
def TrunkPort.powerOn (straps : Station) (pause : Bool) : TrunkPort where
  ownAddress := straps
  framer := .hunt
  trq := []
  mcq := []
  hold := false
  pause := pause
  tsq := []
  sending := none
  headCounted := false
  line := .powerOn
  change := none

/-! ## Field Port and Field Line Controller (chapters 1 and 7) -/

structure FieldPort where
  framer : Framer
  /-- The receiver is on exactly while the driver enable is released (R6). -/
  driverEnable : Bool
  /-- The request on the line, held by the field transmitter until its last byte is sent (R104). -/
  sending : Option (List Byte)
  line : LineSettings
  change : Option LineSettings
  deriving DecidableEq, Repr

def FieldPort.powerOn : FieldPort := ⟨.hunt, false, none, .powerOn, none⟩

/-- The side a transaction serves (R104). -/
inductive Owner where
  | trunk
  | sweep (k : SweepId)
  deriving DecidableEq, Repr

inductive FlcState where
  | idle
  | sending
  | awaiting
  | receiving
  | settling
  deriving DecidableEq, Repr

/-- The transaction record (R104). -/
structure Transaction where
  owner : Owner
  station : Station
  function : Byte
  broadcast : Bool
  abandoned : Bool
  item : Option (Nat × SetId)
  deriving DecidableEq, Repr

/-- The reply window timer; `expired` is an expiry noted in RECEIVING (R107, R112). -/
inductive WindowTimer where
  | stopped
  | running (remaining : Nat)
  | expired
  deriving DecidableEq, Repr

inductive FieldOutcome where
  | reply (t : Telegram)
  | noReply
  | corrupt
  deriving DecidableEq, Repr

/-- An outcome record (R113). -/
structure OutcomeRecord where
  owner : Owner
  station : Station
  function : Byte
  outcome : FieldOutcome
  deriving DecidableEq, Repr

structure FieldLineController where
  state : FlcState
  record : Option Transaction
  window : WindowTimer
  settle : Option Nat
  frq : List OutcomeRecord
  deriving DecidableEq, Repr

def FieldLineController.powerOn : FieldLineController := ⟨.idle, none, .stopped, none, []⟩

/-! ## Classifiers and mailbox (chapters 2 and 5) -/

/-- An entry of FSQ (R76). -/
structure FsqEntry where
  telegram : Telegram
  urgent : Bool
  deriving DecidableEq, Repr

/-- What a mailbox entry holds beside its sequence number (R81). -/
structure MailboxCopy where
  direction : Direction
  owner : Owner
  result : Entry
  verdict : Bool
  originalLength : Nat
  address : Byte
  function : Byte
  payload : List Byte
  deriving DecidableEq, Repr

structure MailboxEntry where
  sequence : BitVec 16
  content : MailboxCopy
  deriving DecidableEq, Repr

structure Mailbox where
  entries : List MailboxEntry
  next : BitVec 16
  deriving DecidableEq, Repr

def Mailbox.powerOn : Mailbox := ⟨[], 0⟩

/-- One output of a disposition, in the order of R23. -/
inductive Output where
  | mailbox (c : MailboxCopy)
  | fieldQueue (e : FsqEntry)
  | trunkQueue (e : TsqEntry)
  | report (k : SweepId) (silent : Bool) (verdict : Bool)
  deriving DecidableEq, Repr

/-- The item of a unit of work (R19). -/
inductive Item where
  | request (t : Telegram)
  | outcome (r : OutcomeRecord)
  deriving DecidableEq, Repr

/-- A unit of work: its item, held set, dispatch result, verdict, the outputs not yet delivered and its hold timer. -/
structure UnitOfWork where
  item : Item
  set : SetId
  result : Option Entry
  verdict : Bool
  outputs : List Output
  holdTimer : Option Nat
  deriving DecidableEq, Repr

/-- A classifier's state (R19); only WORKING and STALLED hold an item and a set. -/
inductive Classifier where
  | idle
  | working (u : UnitOfWork)
  | stalled (u : UnitOfWork)
  deriving DecidableEq, Repr

/-! ## Accumulators (chapter 4) -/

inductive AccMode where
  | saturate
  | wrap
  deriving DecidableEq, Repr

structure Accumulator where
  sum : Int
  samples : Nat
  tally : Int
  sticky : Bool
  mode : AccMode
  deriving DecidableEq, Repr

/-- R58, R71. -/
def Accumulator.powerOn : Accumulator := ⟨0, 0, 0, false, .saturate⟩

/-! ## Line Arbiter (chapter 8) -/

inductive Side where
  | trunk
  | sweeps
  deriving DecidableEq, Repr

/-- A pending Bracket-expired notice (R131). -/
structure BracketNotice where
  expiries : Nat
  grants : Nat
  deriving DecidableEq, Repr

structure LineArbiter where
  holder : Side
  counter : Nat
  /-- The bracket is OPEN exactly while its timer runs (R120). -/
  bracket : Option Nat
  grants : Nat
  pointer : SweepId
  notice : Option BracketNotice
  deriving DecidableEq, Repr

/-- The values after power-on (limit 8) and after RESTART (the configured limit), R120, R133. -/
def LineArbiter.cleared (tenureLimit : Nat) : LineArbiter := ⟨.trunk, tenureLimit, none, 0, 3, none⟩

/-! ## Sweeps (chapter 9) -/

inductive SweepState where
  | idle
  | running
  | halted
  | waiting
  deriving DecidableEq, Repr

inductive SweepMode where
  | every
  | haltOnFalse
  | seek
  | retry
  deriving DecidableEq, Repr

inductive EndReason where
  | none
  | complete
  | qualFalse
  | found
  | retryLimit
  | silent
  | stopped
  | listVoid
  deriving DecidableEq, Repr

/-- A pending Sweep-end notice (R145). -/
structure SweepNotice where
  reason : EndReason
  cursor : Nat
  remaining : Nat
  stopStation : Station
  passes : BitVec 16
  superseded : Bool
  deriving DecidableEq, Repr

/-- A sweep context (R134). -/
structure Sweep where
  state : SweepState
  mode : SweepMode
  first : Nat
  count : Nat
  cursor : Nat
  remaining : Nat
  retryLimit : Nat
  retryTally : Nat
  silenceLimit : Nat
  silenceRun : Nat
  period : Nat
  periodTimer : Option Nat
  notify : Bool
  rerun : Bool
  stopPending : Bool
  outstanding : Option (Nat × SetId)
  reason : EndReason
  stopStation : Station
  passes : BitVec 16
  notice : Option SweepNotice
  deriving DecidableEq, Repr

/-- R134, R156. -/
def Sweep.powerOn : Sweep where
  state := .idle
  mode := .every
  first := 0
  count := 1
  cursor := 0
  remaining := 1
  retryLimit := 1
  retryTally := 0
  silenceLimit := 0
  silenceRun := 0
  period := 0
  periodTimer := none
  notify := false
  rerun := false
  stopPending := false
  outstanding := none
  reason := .none
  stopStation := 63
  passes := 0
  notice := none

/-! ## Attention Monitor, Management Unit (chapters 10 and 11) -/

structure AttentionMonitor where
  count : Nat
  pending : Bool
  level : Level
  deriving DecidableEq, Repr

/-- R158; the level is the input's (R157). -/
def AttentionMonitor.powerOn (level : Level) : AttentionMonitor := ⟨0, false, level⟩

/-- The Management Unit's states (R164); WAITING holds the response. -/
inductive ManagementUnit where
  | idle
  | executing
  | waiting (response : TsqEntry)
  deriving DecidableEq, Repr

/-- The twelve counters, in the order COUNTERS returns them (R172). -/
structure Counters where
  trunkMalformed : Nat
  trunkCorrupt : Nat
  trunkOverrun : Nat
  commandOverrun : Nat
  fieldCorrupt : Nat
  fieldNoReply : Nat
  fieldMismatch : Nat
  fieldUnsolicited : Nat
  voidAction : Nat
  mailboxLost : Nat
  withheld : Nat
  trunkPauseWaits : Nat
  deriving DecidableEq, Repr

def Counters.zero : Counters := ⟨0, 0, 0, 0, 0, 0, 0, 0, 0, 0, 0, 0⟩

inductive MailboxPolicy where
  | lose
  | hold
  deriving DecidableEq, Repr

/-- The configuration record (section 11.5). An unmatched disposition is `dropped` for DROP and clear for PASS (R30). -/
structure ConfigRecord where
  trunkRate : Rate
  fieldRate : Rate
  gap : Nat
  replyWindow : Nat
  settleTime : Nat
  tenureLimit : Nat
  downstreamDrops : Bool
  upstreamDrops : Bool
  policy : MailboxPolicy
  holdLimit : Nat
  attentionEnable : Bool
  binding : Option SweepId
  deriving DecidableEq, Repr

/-- The power-on values of section 11.5. -/
def ConfigRecord.powerOn : ConfigRecord where
  trunkRate := .r19200
  fieldRate := .r19200
  gap := 33
  replyWindow := 20
  settleTime := 2
  tenureLimit := 8
  downstreamDrops := false
  upstreamDrops := false
  policy := .lose
  holdLimit := 100
  attentionEnable := false
  binding := none

/-! ## The whole part -/

/-- The state of the 4110, one field per block, and the queue of commands that are waiting. -/
structure State where
  tp : TrunkPort
  fp : FieldPort
  flc : FieldLineController
  dc : Classifier
  uc : Classifier
  fsq : List FsqEntry
  ab : Sparse Accumulator
  mb : Mailbox
  ts : TableStore
  la : LineArbiter
  ss : Four Sweep
  am : AttentionMonitor
  mu : ManagementUnit
  counters : Counters
  config : ConfigRecord
  pending : List Instr
  deriving DecidableEq, Repr

/-- The part right after power-on reset, with the straps and the attention level given (R177). -/
def State.powerOn (straps : Station) (attention : Level) (pause : Bool) : State where
  tp := .powerOn straps pause
  fp := .powerOn
  flc := .powerOn
  dc := .idle
  uc := .idle
  fsq := []
  ab := []
  mb := .powerOn
  ts := .powerOn
  la := .cleared 8
  ss := ⟨.powerOn, .powerOn, .powerOn, .powerOn⟩
  am := .powerOn attention
  mu := .idle
  counters := .zero
  config := .powerOn
  pending := []

/-- The machine right after reset. DESIGN CHOICE (log 6): the straps read 0, the attention input is RELEASED and the
pause input is released, since the spec leaves the level of its inputs to the outside. -/
def State.reset : State := .powerOn 0 .released false

/-- The spec names no event that stops the part, so no command ends in a fault. -/
inductive Fault where
  deriving DecidableEq, Repr

/-- Reasons for giving no meaning. -/
inductive Refusal where
  /-- Raised by exec alone, for a row whose meaning is not written; safe, since the model stops. No arm of this model raises it. -/
  | notModelled (mnemonic : String)
  deriving DecidableEq, Repr

end Sys2Proof.Machine
end

