-- ==== Sys2Proof/Machine/Framer.lean ====
section
/-! DEFINITION. The telegram on a line: its address byte, its check (R3), the framer that takes it off a line
(R4) and the bytes a transmitter puts on a line (R2, R3). -/

namespace Sys2Proof.Machine

/-! ## The address byte (section 12.1) -/

def stationOf (address : Byte) : Station := address.extractLsb' 0 6
def replyFlagOf (address : Byte) : Bool := address.getLsbD 7
def attentionFlagOf (address : Byte) : Bool := address.getLsbD 6
def addressByte (reply attention : Bool) (s : Station) : Byte := BitVec.ofBool reply ++ BitVec.ofBool attention ++ s

def Telegram.station (t : Telegram) : Station := stationOf t.address
def Telegram.replyFlag (t : Telegram) : Bool := replyFlagOf t.address
def Telegram.attentionFlag (t : Telegram) : Bool := attentionFlagOf t.address

/-! ## The check (R3) -/

/-- One shift of the check register: left one place, and 0x1021 combined if a 1 was shifted out. -/
def crcShift (r : BitVec 16) : BitVec 16 := if r.getLsbD 15 then (r <<< 1) ^^^ 0x1021#16 else r <<< 1

/-- One covered byte: combined into the upper eight bits, then eight shifts. -/
def crcByte (r : BitVec 16) (b : Byte) : BitVec 16 :=
  crcShift (crcShift (crcShift (crcShift (crcShift (crcShift (crcShift (crcShift (r ^^^ (b ++ 0#8)))))))))

/-- The check over the covered bytes, in the order sent. -/
def check (covered : List Byte) : BitVec 16 := covered.foldl crcByte 0xFFFF#16

def upperByte (w : BitVec 16) : Byte := w.extractLsb' 8 8
def lowerByte (w : BitVec 16) : Byte := w.extractLsb' 0 8

/-! ## Sending (R2, R3, R13, R106) -/

/-- The covered bytes of a telegram: address, function, length and payload. -/
def coveredBytes (address function : Byte) (payload : List Byte) : List Byte :=
  address :: function :: BitVec.ofNat 8 payload.length :: payload

/-- A telegram as a transmitter sends it, from its opening byte to its check, which is computed afresh. -/
def lineBytes (address function : Byte) (payload : List Byte) : List Byte :=
  let covered := coveredBytes address function payload
  openingByte :: covered ++ [upperByte (check covered), lowerByte (check covered)]

/-! ## Receiving (R4) -/

/-- The end of a telegram whose check bytes have both been taken. -/
def judgeCheck (address function length : Byte) (taken : List Byte) (upper lower : Byte) : Ended :=
  if check (address :: function :: length :: taken) = upper ++ lower then .good ⟨address, function, taken⟩ else .corrupt

/-- One arriving character moves the framer, and may end a telegram (the table of R4). -/
def Framer.take : Framer → Rx → Framer × Option Ended
  | .hunt, .byte b => if b = openingByte then (.address, none) else (.hunt, none)
  | .hunt, .broken => (.hunt, none)
  | .address, .byte b => (.function b, none)
  | .function a, .byte b => (.length a b, none)
  | .length a f, .byte b =>
    if 240 < b.toNat then (.hunt, some .malformed)
    else if b = 0 then (.check a f b [] none, none)
    else (.payload a f b [], none)
  | .payload a f n taken, .byte b =>
    if (taken ++ [b]).length < n.toNat then (.payload a f n (taken ++ [b]), none)
    else (.check a f n (taken ++ [b]) none, none)
  | .check a f n taken none, .byte b => (.check a f n taken (some b), none)
  | .check a f n taken (some u), .byte b => (.hunt, some (judgeCheck a f n taken u b))
  | _, .broken => (.hunt, some .malformed)

/-- The telegrams ended by a run of characters, and the framer after it. -/
def Framer.takeAll : Framer → List Rx → Framer × List Ended
  | f, [] => (f, [])
  | f, c :: cs =>
    let r := f.take c
    let rest := Framer.takeAll r.1 cs
    (rest.1, r.2.toList ++ rest.2)

/-- The characters of a telegram as they arrive on a line. -/
def lineChars (address function : Byte) (payload : List Byte) : List Rx :=
  (lineBytes address function payload).map Rx.byte

end Sys2Proof.Machine
end

