-- ==== Sys2Proof/Machine/Store.lean ====
section
/-! DEFINITION. Reading and writing data held by index: the sparse arrays of a table set and of the Accumulator
Bank, and the things that come in fours. The sparse form is canonical (`Sparse.wf`), so equal arrays are equal data. -/

namespace Sys2Proof.Machine

/-- The cell at index `k`; `d` says what an unlisted index reads as. -/
def Sparse.get {α : Type} (d : Nat → α) : Sparse α → Nat → α
  | [], k => d k
  | (j, v) :: rest, k => if k = j then v else Sparse.get d rest k

/-- Writes `v` at index `k`, keeping the canonical form. -/
def Sparse.put {α : Type} [DecidableEq α] (d : Nat → α) (k : Nat) (v : α) : Sparse α → Sparse α
  | [] => if v = d k then [] else [(k, v)]
  | (j, w) :: rest =>
    if k < j then (if v = d k then (j, w) :: rest else (k, v) :: (j, w) :: rest)
    else if k = j then (if v = d k then rest else (k, v) :: rest)
    else (j, w) :: Sparse.put d k v rest

/-- The canonical form from index `lo` on: indexes strictly rising, no cell equal to what it would read as unlisted. -/
def Sparse.wfFrom {α : Type} [DecidableEq α] (d : Nat → α) : Nat → Sparse α → Bool
  | _, [] => true
  | lo, (j, v) :: rest => decide (lo ≤ j) && decide (v ≠ d j) && Sparse.wfFrom d (j + 1) rest

/-- The canonical form. -/
def Sparse.wf {α : Type} [DecidableEq α] (d : Nat → α) (m : Sparse α) : Bool := Sparse.wfFrom d 0 m

/-- Reads `n` cells from `start` on. -/
def Sparse.getRun {α : Type} (d : Nat → α) (m : Sparse α) (start : Nat) : Nat → List α
  | 0 => []
  | n + 1 => Sparse.get d m start :: Sparse.getRun d m (start + 1) n

/-- Writes a run of cells from `start` on, in order. -/
def Sparse.putRun {α : Type} [DecidableEq α] (d : Nat → α) : Nat → List α → Sparse α → Sparse α
  | _, [], m => m
  | start, v :: vs, m => Sparse.putRun d (start + 1) vs (Sparse.put d start v m)

def Four.get {α : Type} (f : Four α) : Fin 4 → α
  | 0 => f.a0
  | 1 => f.a1
  | 2 => f.a2
  | 3 => f.a3

def Four.set {α : Type} (f : Four α) (k : Fin 4) (v : α) : Four α :=
  match k with
  | 0 => { f with a0 := v }
  | 1 => { f with a1 := v }
  | 2 => { f with a2 := v }
  | 3 => { f with a3 := v }

/-- The four in the order 0, 1, 2, 3. -/
def Four.toList {α : Type} (f : Four α) : List α := [f.a0, f.a1, f.a2, f.a3]

def Four.map {α β : Type} (g : α → β) (f : Four α) : Four β := ⟨g f.a0, g f.a1, g f.a2, g f.a3⟩

/-! ## What an unlisted cell reads as (R58, R102) -/

def entryDefault : Nat → Entry := fun _ => .pass
def recordDefault : Nat → Option ActionRecord := fun _ => none
/-- Entry v of table t, at index 256 t + v, is v: the identity table. -/
def translateDefault : Nat → Byte := fun k => BitVec.ofNat 8 k
def delimiterDefault : Nat → Bool := fun _ => false
def patternDefault : Nat → Byte := fun _ => spaceByte
def itemDefault : Nat → Option SweepItem := fun _ => none
def accumulatorDefault : Nat → Accumulator := fun _ => .powerOn

def TableSet.entry (t : TableSet) (k : Nat) : Entry := Sparse.get entryDefault t.entries k
def TableSet.record (t : TableSet) (n : Nat) : Option ActionRecord := Sparse.get recordDefault t.records n
def TableSet.translated (t : TableSet) (table : Nat) (b : Byte) : Byte :=
  Sparse.get translateDefault t.translate (256 * table + b.toNat)
def TableSet.isDelimiter (t : TableSet) (set : Nat) (b : Byte) : Bool :=
  Sparse.get delimiterDefault t.delimiters (256 * set + b.toNat)
def TableSet.patternRun (t : TableSet) (sp : Span) : List Byte :=
  Sparse.getRun patternDefault t.pattern sp.offset sp.length
def TableSet.item (t : TableSet) (k : Nat) : Option SweepItem := Sparse.get itemDefault t.items k
def TableSet.windows (t : TableSet) : Direction → Four Window
  | .downstream => t.downstream
  | .upstream => t.upstream

/-- Every array of the set is in its canonical form. -/
def TableSet.wf (t : TableSet) : Bool :=
  Sparse.wf entryDefault t.entries && Sparse.wf recordDefault t.records && Sparse.wf translateDefault t.translate
    && Sparse.wf delimiterDefault t.delimiters && Sparse.wf patternDefault t.pattern && Sparse.wf itemDefault t.items

def SetId.other : SetId → SetId
  | .zero => .one
  | .one => .zero

/-- The table set of that number. -/
def TableStore.table (ts : TableStore) : SetId → TableSet
  | .zero => ts.set0
  | .one => ts.set1

def TableStore.withTable (ts : TableStore) (i : SetId) (t : TableSet) : TableStore :=
  match i with
  | .zero => { ts with set0 := t }
  | .one => { ts with set1 := t }

/-- The edit set is the one the live selector does not name (section 6.2). -/
def TableStore.edit (ts : TableStore) : SetId := ts.live.other

end Sys2Proof.Machine
end

