-- ==== Sys2Proof/Machine/Formats.lean ====
section
/-! DEFINITION. Every byte image of chapter 12: numbers, codes, table elements, the configuration record, the images
that responses and notices carry. A reader answers `none` where R178 or the element's rule asks for BAD_ARG. -/

namespace Sys2Proof.Machine

/-! ## Numbers (R178) -/

/-- An unsigned number in `n` bytes, most significant byte first. -/
def bytesOf : Nat → Nat → List Byte
  | 0, _ => []
  | n + 1, v => BitVec.ofNat 8 (v / 256 ^ n) :: bytesOf n v

/-- A signed number in `n` bytes, two's complement. -/
def signedBytesOf (n : Nat) (v : Int) : List Byte := bytesOf n (v % 256 ^ n).toNat

/-- The unsigned number a run of bytes holds. -/
def natOf (bytes : List Byte) : Nat := bytes.foldl (fun acc b => 256 * acc + b.toNat) 0

/-- The signed number a run of bytes holds. -/
def intOf (bytes : List Byte) : Int :=
  if 2 * natOf bytes < 256 ^ bytes.length then (natOf bytes : Int) else (natOf bytes : Int) - 256 ^ bytes.length

/-- A byte of flags, from bit 7 to bit 0. -/
def flagByte (b7 b6 b5 b4 b3 b2 b1 b0 : Bool) : Byte :=
  BitVec.ofBool b7 ++ BitVec.ofBool b6 ++ BitVec.ofBool b5 ++ BitVec.ofBool b4
    ++ BitVec.ofBool b3 ++ BitVec.ofBool b2 ++ BitVec.ofBool b1 ++ BitVec.ofBool b0

/-- A flag byte whose only flag is bit 0: bits 7..1 are reserved (section 12.6). -/
def readFlag0 (b : Byte) : Option Bool := if 1 < b.toNat then none else some (b.getLsbD 0)

/-- The bytes `start`, …, `start + n - 1` of an image. -/
def field (image : List Byte) (start n : Nat) : List Byte := (image.drop start).take n
def fieldByte (image : List Byte) (k : Nat) : Byte := image.getD k 0
def fieldNat (image : List Byte) (start n : Nat) : Nat := natOf (field image start n)
def fieldInt (image : List Byte) (start n : Nat) : Int := intOf (field image start n)
def fieldZero (image : List Byte) (start n : Nat) : Bool := (field image start n).all (· == 0)

/-! ## Codes (sections 11.1, 11.2 and 12.2) -/

/-- The result codes (R166). -/
inductive Result where
  | ok
  | busy
  | badArg
  | badLength
  | unknown
  | badState
  | empty
  deriving DecidableEq, Repr

def Result.code : Result → Byte
  | .ok => 0
  | .busy => 1
  | .badArg => 2
  | .badLength => 3
  | .unknown => 4
  | .badState => 5
  | .empty => 6

def codeIdentify : Byte := 0x01
def codeStatus : Byte := 0x02
def codeCounters : Byte := 0x03
def codeConfigRead : Byte := 0x10
def codeConfigWrite : Byte := 0x11
def codeTableRead : Byte := 0x20
def codeTableWrite : Byte := 0x21
def codePublish : Byte := 0x22
def codeAccRead : Byte := 0x30
def codeAccSetup : Byte := 0x31
def codeAccClear : Byte := 0x32
def codeSweepLoad : Byte := 0x40
def codeSweepStart : Byte := 0x41
def codeSweepResume : Byte := 0x42
def codeSweepStop : Byte := 0x43
def codeSweepRead : Byte := 0x44
def codeMailboxTake : Byte := 0x50
def codeBracketOpen : Byte := 0x60
def codeBracketClose : Byte := 0x61
def codeRestart : Byte := 0x7F

/-- The codes of section 11.1; any other function byte names no command (R165). -/
def commandCodes : List Byte :=
  [codeIdentify, codeStatus, codeCounters, codeConfigRead, codeConfigWrite, codeTableRead, codeTableWrite, codePublish,
    codeAccRead, codeAccSetup, codeAccClear, codeSweepLoad, codeSweepStart, codeSweepResume, codeSweepStop,
    codeSweepRead, codeMailboxTake, codeBracketOpen, codeBracketClose, codeRestart]

def noticeNoReply : Byte := 0xE1
def noticeWithheld : Byte := 0xE2
def noticeAttention : Byte := 0xE3
def noticeSweepEnd : Byte := 0xE4
def noticeBracketExpired : Byte := 0xE5

/-- The kinds of table (section 12.2). -/
inductive TableKind where
  | window
  | entries
  | actionRecord
  | translateBytes
  | delimiterSet
  | patternBytes
  | sweepItem
  deriving DecidableEq, Repr

def TableKind.ofByte (b : Byte) : Option TableKind :=
  match b.toNat with
  | 1 => some .window
  | 2 => some .entries
  | 3 => some .actionRecord
  | 4 => some .translateBytes
  | 5 => some .delimiterSet
  | 6 => some .patternBytes
  | 7 => some .sweepItem
  | _ => none

def Entry.code : Entry → Nat
  | .action n => n.toNat
  | .drop => 0xFFFE
  | .pass => 0xFFFF

/-- R97: the listed entry codes. -/
def Entry.ofCode (c : Nat) : Option Entry :=
  if c < 256 then some (.action (BitVec.ofNat 8 c)) else if c = 0xFFFE then some .drop
  else if c = 0xFFFF then some .pass else none

def Condition.code : Condition → Byte
  | .always => 0
  | .never => 1
  | .inLimits => 2
  | .outOfLimits => 3
  | .below => 4
  | .above => 5
  | .matchEq => 6
  | .matchNe => 7
  | .matchLt => 8
  | .matchGt => 9
  | .valueZero => 10
  | .valueNonzero => 11
  | .extractFail => 12
  | .accOverflow => 13
  | .accClean => 14
  | .attention => 15
  | .notAttention => 16

def Condition.ofByte (b : Byte) : Option Condition :=
  match b.toNat with
  | 0 => some .always
  | 1 => some .never
  | 2 => some .inLimits
  | 3 => some .outOfLimits
  | 4 => some .below
  | 5 => some .above
  | 6 => some .matchEq
  | 7 => some .matchNe
  | 8 => some .matchLt
  | 9 => some .matchGt
  | 10 => some .valueZero
  | 11 => some .valueNonzero
  | 12 => some .extractFail
  | 13 => some .accOverflow
  | 14 => some .accClean
  | 15 => some .attention
  | 16 => some .notAttention
  | _ => none

def Disposition.code : Disposition → Byte
  | .forward => 0
  | .drop => 1
  | .copy => 2
  | .forwardCopy => 3

def Disposition.ofByte (b : Byte) : Option Disposition :=
  match b.toNat with
  | 0 => some .forward
  | 1 => some .drop
  | 2 => some .copy
  | 3 => some .forwardCopy
  | _ => none

def SweepMode.code : SweepMode → Byte
  | .every => 0
  | .haltOnFalse => 1
  | .seek => 2
  | .retry => 3

def SweepMode.ofByte (b : Byte) : Option SweepMode :=
  match b.toNat with
  | 0 => some .every
  | 1 => some .haltOnFalse
  | 2 => some .seek
  | 3 => some .retry
  | _ => none

def SweepState.code : SweepState → Byte
  | .idle => 0
  | .running => 1
  | .halted => 2
  | .waiting => 3

def EndReason.code : EndReason → Byte
  | .none => 0
  | .complete => 1
  | .qualFalse => 2
  | .found => 3
  | .retryLimit => 4
  | .silent => 5
  | .stopped => 6
  | .listVoid => 7

def Owner.code : Owner → Byte
  | .trunk => 0
  | .sweep k => BitVec.ofNat 8 (k.val + 1)

/-- The binding: 0 none, 1..4 sweep 0..3. -/
def bindingCode : Option SweepId → Byte
  | none => 0
  | some k => BitVec.ofNat 8 (k.val + 1)

def bindingOf (n : Nat) : Option (Option SweepId) :=
  match n with
  | 0 => some none
  | 1 => some (some 0)
  | 2 => some (some 1)
  | 3 => some (some 2)
  | 4 => some (some 3)
  | _ => none

def Rate.code : Rate → Byte
  | .r9600 => 0
  | .r19200 => 1
  | .r38400 => 2
  | .r57600 => 3
  | .r115200 => 4
  | .r230400 => 5
  | .r460800 => 6
  | .r921600 => 7

def Rate.ofByte (b : Byte) : Option Rate :=
  match b.toNat with
  | 0 => some .r9600
  | 1 => some .r19200
  | 2 => some .r38400
  | 3 => some .r57600
  | 4 => some .r115200
  | 5 => some .r230400
  | 6 => some .r460800
  | 7 => some .r921600
  | _ => none

/-- The rate in bits per second (R1). -/
def Rate.bitsPerSecond : Rate → Nat
  | .r9600 => 9600
  | .r19200 => 19200
  | .r38400 => 38400
  | .r57600 => 57600
  | .r115200 => 115200
  | .r230400 => 230400
  | .r460800 => 460800
  | .r921600 => 921600

def AccMode.code : AccMode → Byte
  | .saturate => 0
  | .wrap => 1

def AccMode.ofByte (b : Byte) : Option AccMode :=
  match b.toNat with
  | 0 => some .saturate
  | 1 => some .wrap
  | _ => none

def StoreState.code : StoreState → Byte
  | .editable => 0
  | .draining => 1
  | .copying => 2

def FlcState.code : FlcState → Byte
  | .idle => 0
  | .sending => 1
  | .awaiting => 2
  | .receiving => 3
  | .settling => 4

def Classifier.code : Classifier → Byte
  | .idle => 0
  | .working _ => 1
  | .stalled _ => 2

def Side.code : Side → Byte
  | .trunk => 0
  | .sweeps => 1

def Direction.ofByte (b : Byte) : Option Direction :=
  match b.toNat with
  | 0 => some .downstream
  | 1 => some .upstream
  | _ => none

def SetId.code : SetId → Byte
  | .zero => 0
  | .one => 1

def SetId.ofByte (b : Byte) : Option SetId :=
  match b.toNat with
  | 0 => some .zero
  | 1 => some .one
  | _ => none

/-- An index 0..3 of a window or of a sweep. -/
def index4 (b : Byte) : Option (Fin 4) :=
  match b.toNat with
  | 0 => some 0
  | 1 => some 1
  | 2 => some 2
  | 3 => some 3
  | _ => none

/-- A station as a byte of a payload. -/
def stationByte (s : Station) : Byte := BitVec.ofNat 8 s.toNat

/-! ## Table element images (section 12.3) -/

def Window.image (w : Window) : List Byte :=
  flagByte w.enabled false false false false false false false
    :: (bytesOf 2 w.low ++ bytesOf 2 w.high ++ bytesOf 2 w.base)

/-- R96; bits 6..0 of the first byte are reserved. -/
def Window.ofImage (image : List Byte) : Option Window :=
  let b := fieldByte image 0
  let low := fieldNat image 1 2
  let high := fieldNat image 3 2
  let base := fieldNat image 5 2
  if b.extractLsb' 0 7 ≠ 0 then none
  else if 16383 < low ∨ 16383 < high ∨ high < low then none
  else if 2047 < base ∨ 2047 < base + (high - low) then none
  else some ⟨b.getLsbD 7, low, high, base⟩

/-- A payload span (R54). -/
def Span.ofBytes (offset length : Byte) : Option Span :=
  if 239 < offset.toNat ∨ 240 < length.toNat ∨ 240 < offset.toNat + length.toNat then none
  else some ⟨offset.toNat, length.toNat⟩

def Span.image (s : Span) : List Byte := bytesOf 1 s.offset ++ bytesOf 1 s.length

/-- A run of the pattern memory (R54, R99). -/
def patternSpanOf (offset length : Nat) : Option Span :=
  if 2047 < offset ∨ 240 < length ∨ 2048 < offset + length then none else some ⟨offset, length⟩

def patternSpanImage (s : Span) : List Byte := bytesOf 2 s.offset ++ bytesOf 1 s.length

/-- A stage that is absent must carry 0 in every byte (R179); one that is present is read by `read`. -/
def readStage {α : Type} (present : Bool) (image : List Byte) (start n : Nat) (read : Option α) : Option (Option α) :=
  if present then read.map some else if fieldZero image start n then some none else none

def readMatch (image : List Byte) : Option MatchStage := do
  let span ← Span.ofBytes (fieldByte image 5) (fieldByte image 6)
  let pattern ← patternSpanOf (fieldNat image 7 2) (fieldNat image 9 1)
  pure ⟨span, pattern⟩

def MatchStage.image (m : MatchStage) : List Byte := m.span.image ++ patternSpanImage m.pattern

def readTranslate (image : List Byte) : Option TranslateStage := do
  let span ← Span.ofBytes (fieldByte image 11) (fieldByte image 12)
  if 3 < fieldNat image 10 1 then none else pure ⟨fieldNat image 10 1, span⟩

def TranslateStage.image (x : TranslateStage) : List Byte := bytesOf 1 x.table ++ x.span.image

def readExtract (image : List Byte) : Option ExtractStage := do
  let span ← Span.ofBytes (fieldByte image 13) (fieldByte image 14)
  if 7 < fieldNat image 15 1 ∨ 15 < fieldNat image 16 1 ∨ 6 < fieldNat image 17 1 then none
  else pure ⟨span, fieldNat image 15 1, fieldNat image 16 1, fieldNat image 17 1⟩

def ExtractStage.image (e : ExtractStage) : List Byte :=
  e.span.image ++ bytesOf 1 e.delimiters ++ bytesOf 1 e.field ++ bytesOf 1 e.decimals

def readAdjust (image : List Byte) : Option Int :=
  let c := fieldInt image 18 4
  if c < -999999999 ∨ 999999999 < c then none else some c

/-- Each of low and high fits its 32 bits; low is not above high (R55). -/
def readLimit (image : List Byte) : Option LimitStage :=
  let low := fieldInt image 22 4
  let high := fieldInt image 26 4
  if high < low then none else some ⟨low, high⟩

def LimitStage.image (l : LimitStage) : List Byte := signedBytesOf 4 l.low ++ signedBytesOf 4 l.high

def readAccumulate (image : List Byte) : Option AccumulateStage := do
  let step ← readFlag0 (fieldByte image 31)
  let weight := fieldInt image 32 2
  let scale := fieldInt image 34 1
  if 31 < fieldNat image 30 1 ∨ weight < -32767 ∨ scale < -15 ∨ 1 < scale then none
  else pure ⟨fieldNat image 30 1, step, weight, scale⟩

def AccumulateStage.image (a : AccumulateStage) : List Byte :=
  bytesOf 1 a.base ++ [flagByte false false false false false false false a.step] ++ signedBytesOf 2 a.weight
    ++ signedBytesOf 1 a.scale

/-- The condition tests only what the record produces (R56). -/
def Condition.served (c : Condition) (matching limit extract accumulate : Bool) : Bool :=
  match c with
  | .matchEq | .matchNe | .matchLt | .matchGt => matching
  | .inLimits | .outOfLimits | .below | .above => limit
  | .valueZero | .valueNonzero | .extractFail => extract
  | .accOverflow | .accClean => accumulate
  | .always | .never | .attention | .notAttention => true

/-- The record is consistent within itself (R55; `low ≤ high` is read with the limit stage). -/
def ActionRecord.consistent (r : ActionRecord) : Bool :=
  (r.extract.isSome || (r.adjust.isNone && r.limit.isNone && r.accumulate.isNone && r.repeats == 0))
    && (match r.accumulate with
        | some a => !a.step || decide (a.base + r.repeats ≤ 31)
        | none => true)
    && (match r.extract with
        | some e => decide (e.field + r.repeats ≤ 15)
        | none => true)

/-- The parts of a defined record, each in its range (R54) and bytes of absent stages 0 (R179). -/
def readRecord (image : List Byte) : Option ActionRecord := do
  let b := fieldByte image 0
  let condition ← Condition.ofByte (fieldByte image 2)
  let onTrue ← Disposition.ofByte (fieldByte image 3)
  let onFalse ← Disposition.ofByte (fieldByte image 4)
  let matching ← readStage (b.getLsbD 5) image 5 5 (readMatch image)
  let translate ← readStage (b.getLsbD 4) image 10 3 (readTranslate image)
  let extract ← readStage (b.getLsbD 3) image 13 5 (readExtract image)
  let adjust ← readStage (b.getLsbD 2) image 18 4 (readAdjust image)
  let limit ← readStage (b.getLsbD 1) image 22 8 (readLimit image)
  let accumulate ← readStage (b.getLsbD 0) image 30 5 (readAccumulate image)
  if 7 < fieldNat image 1 1 then none
  else pure ⟨b.getLsbD 6, fieldNat image 1 1, condition, onTrue, onFalse, matching, translate, extract, adjust, limit,
    accumulate⟩

/-- The image of an action record: `some none` marks it undefined, `none` is BAD_ARG (R53 to R56). -/
def recordOfImage (image : List Byte) : Option (Option ActionRecord) :=
  if (fieldByte image 0).getLsbD 7 then
    match readRecord image with
    | some r =>
      if r.consistent && r.condition.served r.matching.isSome r.limit.isSome r.extract.isSome r.accumulate.isSome then
        some (some r)
      else none
    | none => none
  else some none

/-- The bytes of a stage: its own where it is present, 0 where it is absent. -/
def stageImage {α : Type} (n : Nat) (write : α → List Byte) : Option α → List Byte
  | some x => write x
  | none => List.replicate n 0

def ActionRecord.image (r : ActionRecord) : List Byte :=
  [flagByte true r.urgent r.matching.isSome r.translate.isSome r.extract.isSome r.adjust.isSome r.limit.isSome
      r.accumulate.isSome]
    ++ bytesOf 1 r.repeats ++ [r.condition.code, r.onTrue.code, r.onFalse.code]
    ++ stageImage 5 MatchStage.image r.matching ++ stageImage 3 TranslateStage.image r.translate
    ++ stageImage 5 ExtractStage.image r.extract ++ stageImage 4 (signedBytesOf 4) r.adjust
    ++ stageImage 8 LimitStage.image r.limit ++ stageImage 5 AccumulateStage.image r.accumulate

/-- An undefined record reads back as 0 in every byte (R179). -/
def recordImage : Option ActionRecord → List Byte
  | some r => r.image
  | none => List.replicate 35 0

/-- The image of a sweep item (R99): `some none` marks it undefined. -/
def itemOfImage (image : List Byte) : Option (Option SweepItem) :=
  let b := fieldByte image 0
  if b.getLsbD 7 then
    if b.getLsbD 6 ∨ stationOf b = broadcastStation then none
    else match patternSpanOf (fieldNat image 2 2) (fieldNat image 4 1) with
      | some p => some (some ⟨stationOf b, fieldByte image 1, p⟩)
      | none => none
  else some none

def itemImage : Option SweepItem → List Byte
  | some i => [addressByte true false i.station, i.function] ++ patternSpanImage i.pattern
  | none => List.replicate 5 0

/-- The membership a delimiter image gives: value v is bit (v mod 8) of byte (v div 8). -/
def delimitersOfImage (image : List Byte) : List Bool :=
  (List.range 256).map fun v => (fieldByte image (v / 8)).getLsbD (v % 8)

/-- Eight members, from bit 0 to bit 7, as a byte. -/
def memberByte (m : Nat → Bool) : Byte := flagByte (m 7) (m 6) (m 5) (m 4) (m 3) (m 2) (m 1) (m 0)

def delimitersImage (member : Nat → Bool) : List Byte :=
  (List.range 32).map fun j => memberByte fun i => member (8 * j + i)

/-! ## Accumulator, mailbox, configuration, sweep (section 12.4) -/

def Accumulator.image (a : Accumulator) : List Byte :=
  signedBytesOf 6 a.sum ++ bytesOf 4 a.samples ++ signedBytesOf 2 a.tally
    ++ [flagByte false false false false false false (a.mode == .wrap) a.sticky]

/-- The first byte of a mailbox entry: direction, verdict, owner. -/
def mailboxHeadByte (c : MailboxCopy) : Byte :=
  flagByte (c.direction == .upstream) c.verdict false false false false false false ||| c.owner.code

def MailboxEntry.image (e : MailboxEntry) : List Byte :=
  mailboxHeadByte e.content :: bytesOf 2 e.content.result.code ++ bytesOf 2 e.sequence.toNat
    ++ bytesOf 1 e.content.originalLength ++ bytesOf 1 e.content.payload.length
    ++ [e.content.address, e.content.function] ++ e.content.payload

def ConfigRecord.image (c : ConfigRecord) : List Byte :=
  [c.trunkRate.code, c.fieldRate.code] ++ bytesOf 1 c.gap ++ bytesOf 1 c.replyWindow ++ bytesOf 1 c.settleTime
    ++ bytesOf 1 c.tenureLimit ++ [flagByte false false false false false false c.upstreamDrops c.downstreamDrops]
    ++ [if c.policy = .hold then 1 else 0] ++ bytesOf 2 c.holdLimit
    ++ [flagByte c.attentionEnable false false false false false false false ||| bindingCode c.binding]

/-- R174: every field in its range and every reserved bit clear. -/
def ConfigRecord.ofImage (image : List Byte) : Option ConfigRecord := do
  let trunkRate ← Rate.ofByte (fieldByte image 0)
  let fieldRate ← Rate.ofByte (fieldByte image 1)
  let gap := fieldNat image 2 1
  let window := fieldNat image 3 1
  let tenure := fieldNat image 5 1
  let unmatched := fieldByte image 6
  let policy := fieldNat image 7 1
  let hold := fieldNat image 8 2
  let attention := fieldByte image 10
  let binding ← bindingOf (attention.extractLsb' 0 3).toNat
  if gap < 11 ∨ window = 0 ∨ tenure = 0 ∨ 64 < tenure ∨ 3 < unmatched.toNat ∨ 1 < policy ∨ hold = 0 ∨ 1000 < hold
    ∨ attention.extractLsb' 3 4 ≠ 0 then none
  else pure ⟨trunkRate, fieldRate, gap, window, fieldNat image 4 1, tenure, unmatched.getLsbD 0, unmatched.getLsbD 1,
    if policy = 1 then .hold else .lose, hold, attention.getLsbD 7, binding⟩

/-- A sweep context as SWEEP_READ returns it (R152). -/
def Sweep.image (c : Sweep) : List Byte :=
  [c.state.code, c.mode.code] ++ bytesOf 1 c.first ++ bytesOf 2 c.count ++ bytesOf 2 c.cursor ++ bytesOf 2 c.remaining
    ++ bytesOf 1 c.retryLimit ++ bytesOf 1 c.retryTally ++ bytesOf 1 c.silenceLimit ++ bytesOf 1 c.silenceRun
    ++ bytesOf 2 c.period ++ bytesOf 2 (c.periodTimer.getD 0)
    ++ [flagByte false false ((c.notice.map (·.superseded)).getD false) c.notice.isSome c.outstanding.isSome
        c.stopPending c.rerun c.notify]
    ++ bytesOf 1 ((c.outstanding.map (·.1)).getD 0) ++ [((c.outstanding.map (·.2.code)).getD 0)]
    ++ [c.reason.code, stationByte c.stopStation] ++ bytesOf 2 c.passes.toNat

def Counters.image (c : Counters) : List Byte :=
  bytesOf 2 c.trunkMalformed ++ bytesOf 2 c.trunkCorrupt ++ bytesOf 2 c.trunkOverrun ++ bytesOf 2 c.commandOverrun
    ++ bytesOf 2 c.fieldCorrupt ++ bytesOf 2 c.fieldNoReply ++ bytesOf 2 c.fieldMismatch
    ++ bytesOf 2 c.fieldUnsolicited ++ bytesOf 2 c.voidAction ++ bytesOf 2 c.mailboxLost ++ bytesOf 2 c.withheld
    ++ bytesOf 2 c.trunkPauseWaits

/-- IDENTIFY after its result code: part code, revision, own address and the capacities (R169). -/
def identifyImage (own : Station) : List Byte :=
  bytesOf 2 Config.partCode ++ bytesOf 1 Config.revision ++ [stationByte own]
    ++ bytesOf 1 Config.trqCapacity ++ bytesOf 1 Config.mcqCapacity ++ bytesOf 1 Config.tsqCapacity
    ++ bytesOf 1 Config.fsqCapacity ++ bytesOf 1 Config.frqCapacity ++ bytesOf 1 Config.mailboxCapacity
    ++ bytesOf 1 Config.accumulatorCount ++ bytesOf 1 Config.sweepCount ++ bytesOf 1 Config.windowsPerDirection
    ++ bytesOf 2 Config.entryCount ++ bytesOf 2 Config.recordCount ++ bytesOf 1 Config.translateTableCount
    ++ bytesOf 1 Config.delimiterSetCount ++ bytesOf 2 Config.patternByteCount ++ bytesOf 2 Config.itemCount

/-- The transaction record in STATUS: record byte, owner, station, function, item index, set; 0 where no record is present
(section 12.4). That the item index and the set of a trunk-owned record, which has none (R104), are sent as 0 is the
model's choice (log 24). -/
def transactionImage : Option Transaction → List Byte
  | none => List.replicate 6 0
  | some r =>
    [flagByte true r.abandoned false false false false false false, r.owner.code, stationByte r.station, r.function]
      ++ bytesOf 1 ((r.item.map (·.1)).getD 0) ++ [(r.item.map (·.2.code)).getD 0]

/-- STATUS after its result code (R170, section 12.4). -/
def statusImage (s : State) : List Byte :=
  [s.ts.state.code, s.ts.live.code] ++ bytesOf 2 s.ts.publication.toNat ++ [s.flc.state.code]
    ++ transactionImage s.flc.record
    ++ [flagByte false false false false false false s.fp.change.isSome s.tp.change.isSome]
    ++ [flagByte false false false false false false false s.la.bracket.isSome] ++ bytesOf 2 (s.la.bracket.getD 0)
    ++ [s.la.holder.code] ++ bytesOf 1 s.la.counter ++ [s.dc.code, s.uc.code]
    ++ bytesOf 1 s.tp.trq.length ++ bytesOf 1 s.tp.mcq.length ++ bytesOf 1 s.fsq.length ++ bytesOf 1 s.flc.frq.length
    ++ bytesOf 1 s.tp.tsq.length ++ bytesOf 1 s.mb.entries.length
    ++ [flagByte false false false false false false s.config.attentionEnable (s.am.level == .asserted)]
    ++ s.ss.toList.map (·.state.code)

/-! ## Notices (section 12.5) -/

/-- The No-reply notice (R32); the reason is 1 for NO_REPLY and 2 for CORRUPT. -/
def noReplyNotice (station : Station) (function : Byte) (corrupt : Bool) : TsqEntry :=
  ⟨noticeNoReply, [stationByte station, function, if corrupt then 2 else 1], false⟩

/-- The Withheld notice (R77). -/
def withheldNotice (station : Station) (function : Byte) (result : Entry) : TsqEntry :=
  ⟨noticeWithheld, [stationByte station, function] ++ bytesOf 2 result.code, false⟩

/-- The Attention notice, composed from what the monitor holds (R160). -/
def attentionNotice (am : AttentionMonitor) : TsqEntry :=
  ⟨noticeAttention, bytesOf 1 am.count ++ [if am.level = .asserted then 1 else 0], false⟩

/-- The Sweep-end notice, composed from what the slot holds (R145). -/
def sweepEndNotice (k : SweepId) (n : SweepNotice) : TsqEntry :=
  ⟨noticeSweepEnd, bytesOf 1 k.val ++ [n.reason.code] ++ bytesOf 2 n.cursor ++ bytesOf 2 n.remaining
    ++ [stationByte n.stopStation] ++ bytesOf 2 n.passes.toNat ++ [if n.superseded then 1 else 0], false⟩

/-- The Bracket-expired notice, composed from what the slot holds (R132). -/
def bracketExpiredNotice (n : BracketNotice) : TsqEntry :=
  ⟨noticeBracketExpired, bytesOf 1 n.expiries ++ bytesOf 2 n.grants, false⟩

end Sys2Proof.Machine
end

