-- ==== Sys2Proof/Machine/Operands.lean ====
section
/-! DEFINITION. What the classification engine reads from a telegram and its tables: the key and the window search
(R26, R27), spans and their clipping (R37), the comparison (R39), translation (R40), the split into fields (R42) and the
decimal reader (R44, R45). -/

namespace Sys2Proof.Machine

/-! ## Dispatch (R26 to R30) -/

/-- The key: station times 256 plus function (R26). -/
def keyOf (station : Station) (function : Byte) : Nat := station.toNat * 256 + function.toNat

def Telegram.key (t : Telegram) : Nat := keyOf t.station t.function

def Window.covers (w : Window) (key : Nat) : Bool := w.enabled && decide (w.low ≤ key) && decide (key ≤ w.high)

/-- The index of the entry used: that of the first enabled window that covers the key (R27). -/
def searchWindows : List Window → Nat → Option Nat
  | [], _ => none
  | w :: ws, key => if w.covers key then some (w.base + (key - w.low)) else searchWindows ws key

/-- What the search reads: the entry, or the unmatched disposition of the direction (R27, R30). -/
def lookupEntry (t : TableSet) (d : Direction) (unmatchedDrops : Bool) (key : Nat) : Entry :=
  match searchWindows (t.windows d).toList key with
  | some i => t.entry i
  | none => if unmatchedDrops then .drop else .pass

/-! ## Spans, match, translate (R37 to R40) -/

/-- The clipped span of a payload (R37). -/
def Span.clip (sp : Span) (payload : List Byte) : List Byte := (payload.drop sp.offset).take sp.length

inductive MatchResult where
  | eq
  | lt
  | gt
  deriving DecidableEq, Repr

/-- Padding at the end with spaces up to length `n` (R39). -/
def padTo (n : Nat) (bytes : List Byte) : List Byte := bytes ++ List.replicate (n - bytes.length) spaceByte

/-- The first position that differs decides; the left is measured against the right (R39). -/
def comparePairs : List (Byte × Byte) → MatchResult
  | [] => .eq
  | (x, y) :: rest => if x.toNat < y.toNat then .lt else if y.toNat < x.toNat then .gt else comparePairs rest

/-- The comparison of a span with a pattern (R39). -/
def compareBytes (span pattern : List Byte) : MatchResult :=
  let n := max span.length pattern.length
  comparePairs ((padTo n span).zip (padTo n pattern))

/-- The payload with every byte of the clipped span replaced by what `f` gives for it (R40). -/
def translateSpan (f : Byte → Byte) (sp : Span) (payload : List Byte) : List Byte :=
  payload.take sp.offset ++ (sp.clip payload).map f ++ (payload.drop sp.offset).drop sp.length

/-! ## Fields and the decimal reader (R42 to R45) -/

/-- The fields of a clipped span: one more than its delimiter bytes (R42). -/
def splitFields (isDelimiter : Byte → Bool) : List Byte → List (List Byte)
  | [] => [[]]
  | b :: bs =>
    if isDelimiter b then [] :: splitFields isDelimiter bs
    else match splitFields isDelimiter bs with
      | f :: fs => (b :: f) :: fs
      | [] => [[b]]

def isDigit (b : Byte) : Bool := decide (0x30 ≤ b.toNat) && decide (b.toNat ≤ 0x39)
/-- The full stop. -/
def stopByte : Byte := 0x2E

/-- The sign of a number and the bytes after it (R44, step 2): at most one sign is taken. -/
def takeSign : List Byte → Bool × List Byte
  | [] => (false, [])
  | b :: rest => if b = 0x2B then (false, rest) else if b = 0x2D then (true, rest) else (false, b :: rest)

/-- The number part is well formed (R44). -/
def numberPartOk (part : List Byte) : Bool :=
  part.all (fun b => isDigit b || b == stopByte) && decide ((part.filter (· == stopByte)).length ≤ 1)
    && decide (1 ≤ (part.filter isDigit).length) && decide ((part.filter isDigit).length ≤ 9)

/-- The whole number written by the digits of the number part (R45). -/
def digitsValue (part : List Byte) : Nat := (part.filter isDigit).foldl (fun n b => 10 * n + (b.toNat - 0x30)) 0

/-- The number of digits after the full stop (R45). -/
def fractionDigits (part : List Byte) : Nat := ((part.dropWhile (· != stopByte)).drop 1).length

/-- The magnitude with `d` implied decimals, the remainder discarded (R45). -/
def magnitude (d : Nat) (part : List Byte) : Nat :=
  let f := fractionDigits part
  if f ≤ d then digitsValue part * 10 ^ (d - f) else digitsValue part / 10 ^ (f - d)

/-- The decimal reader (R44, R45): the value of a field, or a failure. -/
def readDecimal (d : Nat) (field : List Byte) : Option Int :=
  let signed := takeSign (field.dropWhile (· == spaceByte))
  let part := signed.2.takeWhile (· != spaceByte)
  if numberPartOk part && decide (magnitude d part ≤ 999999999) then
    some (if signed.1 then -(magnitude d part : Int) else (magnitude d part : Int))
  else none

/-- Reading field `n` of a split: a missing or an empty field fails (R43). -/
def readField (d : Nat) (fields : List (List Byte)) (n : Nat) : Option Int :=
  match fields[n]? with
  | none => none
  | some [] => none
  | some (b :: bs) => readDecimal d (b :: bs)

end Sys2Proof.Machine
end

