-- ==== Sys2Proof/Machine/Flags.lean ====
section
/-! DEFINITION. Flags and the arithmetic that sets them: the stage results of a unit (R35, R46, R47, R50), accumulator
arithmetic with its sticky flag (R59 to R65), the verdict conditions (R73), the saturating counts and the hold output (R11). -/

namespace Sys2Proof.Machine

/-- A count that goes up by one and stops at its top (R172, R131, R159). -/
def countUp (top n : Nat) : Nat := min (n + 1) top

/-! ## Accumulators (chapter 4) -/

/-- The term: value times weight times 2 to the scale, rounded down (R60). -/
def accumulatorTerm (value weight scale : Int) : Int :=
  if 0 ≤ scale then value * weight * 2 ^ scale.toNat else value * weight / 2 ^ (-scale).toNat

/-- Dealing with the exact total as the mode directs (R59 step 3, R61, R62). -/
def Accumulator.settle (a : Accumulator) (total : Int) : Accumulator :=
  if Config.sumTop < total then
    match a.mode with
    | .saturate => { a with sum := Config.sumTop, sticky := true }
    | .wrap => { a with sum := total - Config.wrapSpan, tally := min (a.tally + 1) 32767, sticky := true }
  else if total < Config.sumBottom then
    match a.mode with
    | .saturate => { a with sum := Config.sumBottom, sticky := true }
    | .wrap => { a with sum := total + Config.wrapSpan, tally := max (a.tally - 1) (-32768), sticky := true }
  else { a with sum := total }

/-- One accumulation (R59). -/
def Accumulator.accumulate (a : Accumulator) (value weight scale : Int) : Accumulator :=
  let b := a.settle (a.sum + accumulatorTerm value weight scale)
  { b with samples := countUp 4294967295 b.samples }

/-- What ACC_CLEAR, and ACC_READ with clear, do to an accumulator: the mode is kept (R67, R68). -/
def Accumulator.clear (a : Accumulator) : Accumulator := { Accumulator.powerOn with mode := a.mode }

/-- One accumulator of the bank. -/
def bankGet (bank : Sparse Accumulator) (n : Nat) : Accumulator := Sparse.get accumulatorDefault bank n
def bankPut (bank : Sparse Accumulator) (n : Nat) (a : Accumulator) : Sparse Accumulator :=
  Sparse.put accumulatorDefault n a bank

/-- One whole access to each of `n` accumulators from `first` on, in order (R67 to R69). -/
def bankApply (f : Accumulator → Accumulator) : Nat → Nat → Sparse Accumulator → Sparse Accumulator
  | _, 0, bank => bank
  | first, n + 1, bank => bankApply f (first + 1) n (bankPut bank first (f (bankGet bank first)))

/-! ## Stage results (R35) -/

structure StageResults where
  matched : Option MatchResult
  fail : Bool
  below : Bool
  above : Bool
  last : Option Int
  zero : Bool
  deriving DecidableEq, Repr

/-- The values a unit begins with (R35). -/
def StageResults.start : StageResults := ⟨none, false, false, false, none, false⟩

/-- The limit stage sets BELOW or ABOVE and never clears them (R47). -/
def StageResults.limit (r : StageResults) (l : LimitStage) (value : Int) : StageResults :=
  { r with below := r.below || decide (value < l.low), above := r.above || decide (l.high < value) }

/-- The end of a repetition that does not fail (R46): the last value, and Z set exactly when it is 0. -/
def StageResults.record (r : StageResults) (value : Int) : StageResults :=
  { r with last := some value, zero := decide (value = 0) }

/-- One repetition that has read its value: adjust, limit, accumulate, record (R49, steps 2 to 5). -/
def repetition (rec : ActionRecord) (i : Nat) (value : Int) (res : StageResults) (bank : Sparse Accumulator) :
    StageResults × Sparse Accumulator :=
  let adjusted := value + rec.adjust.getD 0
  let limited := match rec.limit with
    | some l => res.limit l adjusted
    | none => res
  let bank' := match rec.accumulate with
    | some a =>
      let n := if a.step then a.base + i else a.base
      bankPut bank n ((bankGet bank n).accumulate adjusted a.weight a.scale)
    | none => bank
  (limited.record adjusted, bank')

/-- `n` repetitions from repetition `i` on; a failed read sets FAIL and ends them (R49). -/
def repetitions (rec : ActionRecord) (e : ExtractStage) (fields : List (List Byte)) :
    Nat → Nat → StageResults → Sparse Accumulator → StageResults × Sparse Accumulator
  | 0, _, res, bank => (res, bank)
  | n + 1, i, res, bank =>
    match readField e.decimals fields (e.field + i) with
    | none => ({ res with fail := true }, bank)
    | some v =>
      let r := repetition rec i v res bank
      repetitions rec e fields n (i + 1) r.1 r.2

/-! ## Verdict (R73, R74) -/

/-- The conditions that read stage results and the attention flag. The ACC conditions read `sticky` (R65). -/
def Condition.holds (c : Condition) (res : StageResults) (sticky attention : Bool) : Bool :=
  match c with
  | .always => true
  | .never => false
  | .inLimits => !res.fail && !(res.below || res.above)
  | .outOfLimits => !res.fail && (res.below || res.above)
  | .below => !res.fail && res.below
  | .above => !res.fail && res.above
  | .matchEq => res.matched == some .eq
  | .matchNe => res.matched == some .lt || res.matched == some .gt
  | .matchLt => res.matched == some .lt
  | .matchGt => res.matched == some .gt
  | .valueZero => !res.fail && res.zero
  | .valueNonzero => !res.fail && !res.zero
  | .extractFail => res.fail
  | .accOverflow => sticky
  | .accClean => !sticky
  | .attention => attention
  | .notAttention => !attention

/-- The conditions that make the overflow test (R65). -/
def Condition.tests : Condition → Bool
  | .accOverflow => true
  | .accClean => true
  | _ => false

/-- What the stages of one unit leave: the payload, the stage results, the bank and the verdict. -/
structure StagesRun where
  payload : List Byte
  results : StageResults
  bank : Sparse Accumulator
  verdict : Bool
  deriving DecidableEq, Repr

/-- Match, on the payload as received (R38). -/
def runMatch (t : TableSet) (rec : ActionRecord) (payload : List Byte) (res : StageResults) : StageResults :=
  match rec.matching with
  | some m => { res with matched := some (compareBytes (m.span.clip payload) (t.patternRun m.pattern)) }
  | none => res

/-- Translate (R40). -/
def runTranslate (t : TableSet) (rec : ActionRecord) (payload : List Byte) : List Byte :=
  match rec.translate with
  | some x => translateSpan (t.translated x.table) x.span payload
  | none => payload

/-- The group of extract, adjust, limit and accumulate, repeated r + 1 times on one split (R42, R49). -/
def runNumeric (t : TableSet) (rec : ActionRecord) (payload : List Byte) (res : StageResults)
    (bank : Sparse Accumulator) : StageResults × Sparse Accumulator :=
  match rec.extract with
  | some e =>
    repetitions rec e (splitFields (t.isDelimiter e.delimiters) (e.span.clip payload)) (rec.repeats + 1) 0 res bank
  | none => (res, bank)

/-- The overflow test of the base accumulator reads its sticky flag and clears it as one access (R65); any other
condition makes no test. -/
def runVerdict (rec : ActionRecord) (attention : Bool) (res : StageResults) (bank : Sparse Accumulator) :
    Bool × Sparse Accumulator :=
  match rec.accumulate with
  | some a =>
    let acc := bankGet bank a.base
    (rec.condition.holds res acc.sticky attention,
      if rec.condition.tests then bankPut bank a.base { acc with sticky := false } else bank)
  | none => (rec.condition.holds res false attention, bank)

/-- All present stages of a record in their fixed order, then its condition (R35). -/
def runStages (t : TableSet) (rec : ActionRecord) (attention : Bool) (payload : List Byte)
    (bank : Sparse Accumulator) : StagesRun :=
  let matched := runMatch t rec payload .start
  let translated := runTranslate t rec payload
  let numeric := runNumeric t rec translated matched bank
  let v := runVerdict rec attention numeric.1 numeric.2
  ⟨translated, numeric.1, v.2, v.1⟩

/-! ## The hold output (R11) -/

/-- The level of the hold output for the occupancies of TRQ and MCQ, from the level it had. -/
def holdLevel (trq mcq : Nat) (old : Bool) : Bool :=
  if 7 ≤ trq ∨ 3 ≤ mcq then true else if trq ≤ 5 ∧ mcq ≤ 2 then false else old

end Sys2Proof.Machine
end

