-- ==== Sys2Proof/Machine/SweepContext.lean ====
section
/-! DEFINITION. What happens inside one sweep context: passes, advances, ends and the application of an outcome
(R135, R138 to R145), and the starts (R149, R153). -/

namespace Sys2Proof.Machine

/-- The values of an end as the notice slot takes them (R145). -/
def Sweep.endValues (c : Sweep) (superseded : Bool) : SweepNotice :=
  ⟨c.reason, c.cursor, c.remaining, c.stopStation, c.passes, superseded⟩

/-- With notify set, an end fills the notice slot; a slot that was pending is marked superseded (R144, R145). -/
def Sweep.fillNotice (c : Sweep) : Sweep :=
  if c.notify then { c with notice := some (c.endValues c.notice.isSome) } else c

/-- An entry into HALTED with its end actions (R144). -/
def Sweep.halt (c : Sweep) (reason : EndReason) (station : Station) : Sweep :=
  ({ c with state := .halted, reason := reason, stopStation := station, rerun := false, stopPending := false } :
    Sweep).fillNotice

/-- The position of a new pass: from first, with the retry tally 0 (R135, R143, R146). -/
def Sweep.fromFirst (c : Sweep) : Sweep := { c with cursor := c.first, remaining := c.count, retryTally := 0 }

/-- A start by SWEEP_START or by an attention trigger (R149, R153). -/
def Sweep.start (c : Sweep) : Sweep :=
  { c.fromFirst with state := .running, silenceRun := 0, rerun := false, stopPending := false, periodTimer := none }

/-- An attention trigger: a start, or the rerun flag of a RUNNING sweep (R153). -/
def Sweep.trigger (c : Sweep) : Sweep := if c.state = .running then { c with rerun := true } else c.start

/-- The move of the position at an advance (R143). -/
def Sweep.moveOn (c : Sweep) : Sweep := { c with cursor := c.cursor + 1, remaining := c.remaining - 1 }

/-- The count and reason of a complete pass (R143). -/
def Sweep.countPass (c : Sweep) (station : Station) : Sweep :=
  { c with passes := c.passes + 1, reason := .complete, stopStation := station }

/-- What follows a complete pass: a rerun, the wait for the period, or IDLE (R143, steps 2 to 4). -/
def Sweep.afterPass (c : Sweep) : Sweep :=
  if c.rerun then { c.fromFirst with rerun := false }
  else if 0 < c.period then { c with state := .waiting, periodTimer := some c.period }
  else { c with state := .idle }

/-- An advance, which may complete the pass (R143). -/
def Sweep.advance (c : Sweep) (station : Station) : Sweep :=
  if c.moveOn.remaining = 0 then ((c.moveOn.countPass station).fillNotice).afterPass else c.moveOn

/-- A true verdict in SEEK: the advance, the count of a complete pass, and the halt, which wins (R141). -/
def Sweep.found (c : Sweep) (station : Station) : Sweep :=
  (if c.moveOn.remaining = 0 then c.moveOn.countPass station else c.moveOn).halt .found station

/-- A false verdict in RETRY (R142). -/
def Sweep.retryOnce (c : Sweep) (station : Station) : Sweep :=
  if c.retryTally + 1 = c.retryLimit then
    ({ c with retryTally := c.retryTally + 1 } : Sweep).halt .retryLimit station
  else { c with retryTally := c.retryTally + 1 }

/-- The step of the sweep's mode (R140 to R142). -/
def Sweep.applyMode (c : Sweep) (verdict : Bool) (station : Station) : Sweep :=
  match c.mode with
  | .every => c.advance station
  | .haltOnFalse => if verdict then c.advance station else c.halt .qualFalse station
  | .seek => if verdict then c.found station else c.advance station
  | .retry => if verdict then ({ c with retryTally := 0 } : Sweep).advance station else c.retryOnce station

/-- The first step of applying a report: the silence run (R138). -/
def Sweep.countSilence (c : Sweep) (silent : Bool) : Sweep :=
  { c with silenceRun := if silent then countUp 15 c.silenceRun else 0 }

/-- Applying a report: silence, a pending stop, the silence limit, then the mode (R138 to R142). -/
def Sweep.applyOutcome (c : Sweep) (silent verdict : Bool) (station : Station) : Sweep :=
  let c1 := c.countSilence silent
  if c1.stopPending then c1.halt .stopped station
  else if c1.silenceLimit ≠ 0 ∧ c1.silenceRun = c1.silenceLimit then c1.halt .silent station
  else c1.applyMode verdict station

/-- What RESTART leaves of a context (R134, R155). -/
def Sweep.restart (c : Sweep) : Sweep :=
  { c.fromFirst with
    state := .idle, silenceRun := 0, periodTimer := none, rerun := false, stopPending := false, outstanding := none,
    reason := .none, notice := none }

end Sys2Proof.Machine
end

