-- ==== Sys2Proof/Machine/Ops.lean ====
section
/-! DEFINITION. The operations that the commands share: counters, the hold output, the Table Store's holders, the mailbox,
delivery of a unit's outputs, admission to TSQ, the start of its head, line changes, the end of a field transaction and the
execution of a management command. -/

namespace Sys2Proof.Machine

/-! ## Counters (R172) -/

inductive Counter where
  | trunkMalformed
  | trunkCorrupt
  | trunkOverrun
  | commandOverrun
  | fieldCorrupt
  | fieldNoReply
  | fieldMismatch
  | fieldUnsolicited
  | voidAction
  | mailboxLost
  | withheld
  | trunkPauseWaits
  deriving DecidableEq, Repr

def Counters.get (c : Counters) : Counter → Nat
  | .trunkMalformed => c.trunkMalformed
  | .trunkCorrupt => c.trunkCorrupt
  | .trunkOverrun => c.trunkOverrun
  | .commandOverrun => c.commandOverrun
  | .fieldCorrupt => c.fieldCorrupt
  | .fieldNoReply => c.fieldNoReply
  | .fieldMismatch => c.fieldMismatch
  | .fieldUnsolicited => c.fieldUnsolicited
  | .voidAction => c.voidAction
  | .mailboxLost => c.mailboxLost
  | .withheld => c.withheld
  | .trunkPauseWaits => c.trunkPauseWaits

/-- One count: 16 bits, saturating at 65535. -/
def Counters.bump (c : Counters) : Counter → Counters
  | .trunkMalformed => { c with trunkMalformed := countUp 65535 c.trunkMalformed }
  | .trunkCorrupt => { c with trunkCorrupt := countUp 65535 c.trunkCorrupt }
  | .trunkOverrun => { c with trunkOverrun := countUp 65535 c.trunkOverrun }
  | .commandOverrun => { c with commandOverrun := countUp 65535 c.commandOverrun }
  | .fieldCorrupt => { c with fieldCorrupt := countUp 65535 c.fieldCorrupt }
  | .fieldNoReply => { c with fieldNoReply := countUp 65535 c.fieldNoReply }
  | .fieldMismatch => { c with fieldMismatch := countUp 65535 c.fieldMismatch }
  | .fieldUnsolicited => { c with fieldUnsolicited := countUp 65535 c.fieldUnsolicited }
  | .voidAction => { c with voidAction := countUp 65535 c.voidAction }
  | .mailboxLost => { c with mailboxLost := countUp 65535 c.mailboxLost }
  | .withheld => { c with withheld := countUp 65535 c.withheld }
  | .trunkPauseWaits => { c with trunkPauseWaits := countUp 65535 c.trunkPauseWaits }

def State.count (s : State) (c : Counter) : State := { s with counters := s.counters.bump c }

/-! ## Trunk queues and the hold output (R10, R11) -/

/-- The comparison made each time a telegram enters or leaves TRQ or MCQ (R11). -/
def TrunkPort.compareHold (p : TrunkPort) : TrunkPort :=
  { p with hold := holdLevel p.trq.length p.mcq.length p.hold }

/-- TRQ takes new contents, and the hold output is compared. -/
def State.setTrq (s : State) (q : List Telegram) : State :=
  { s with tp := ({ s.tp with trq := q } : TrunkPort).compareHold }

/-- MCQ takes new contents, and the hold output is compared. -/
def State.setMcq (s : State) (q : List Telegram) : State :=
  { s with tp := ({ s.tp with mcq := q } : TrunkPort).compareHold }

/-- TSQ takes new contents. -/
def State.setTsq (s : State) (q : List TsqEntry) : State := { s with tp := { s.tp with tsq := q } }

/-! ## Classifiers and table holders (R19, R90, R93) -/

def State.classifier (s : State) : Direction → Classifier
  | .downstream => s.dc
  | .upstream => s.uc

def State.setClassifier (s : State) (d : Direction) (c : Classifier) : State :=
  match d with
  | .downstream => { s with dc := c }
  | .upstream => { s with uc := c }

def Classifier.unit : Classifier → Option UnitOfWork
  | .idle => none
  | .working u => some u
  | .stalled u => some u

/-- The set a classifier holds (R21). -/
def Classifier.held (c : Classifier) : Option SetId := c.unit.map (·.set)

/-- The set a sweep holds, for its outstanding item (R136). -/
def Sweep.held (c : Sweep) : Option SetId := c.outstanding.map (·.2)

/-- One or more consumers hold the set (R90). -/
def State.isHeld (s : State) (i : SetId) : Bool :=
  s.dc.held == some i || s.uc.held == some i || s.ss.toList.any (fun c => c.held == some i)

/-- A release: in DRAINING, when no consumer holds the edit set any more, the copy begins (R91, R93). -/
def State.checkDrain (s : State) : State :=
  if s.ts.state = .draining ∧ s.isHeld s.ts.edit = false then { s with ts := { s.ts with state := .copying } } else s

/-! ## Mailbox (R80 to R83) -/

/-- A copy placed at the tail with the current sequence number, which then moves (R82). -/
def Mailbox.place (m : Mailbox) (c : MailboxCopy) : Mailbox := ⟨m.entries ++ [⟨m.next, c⟩], m.next + 1⟩

def Mailbox.hasRoom (m : Mailbox) : Bool := decide (m.entries.length < Config.mailboxCapacity)

/-! ## Producers of TSQ (R14, R15) -/

inductive Producer where
  | mu
  | uc
  | dc
  | la
  | am
  | ss (k : SweepId)
  deriving DecidableEq, Repr

/-- The order in which the admission arbiter serves them (R15). -/
def producerOrder : List Producer := [.mu, .uc, .dc, .la, .am, .ss 0, .ss 1, .ss 2, .ss 3]

/-- The telegram a stalled classifier waits to place in TSQ (R24). -/
def Classifier.trunkWait : Classifier → Option TsqEntry
  | .stalled u =>
    match u.outputs with
    | .trunkQueue e :: _ => some e
    | _ => none
  | _ => none

/-- What a producer that waits would place in TSQ now; a notice is composed from what its slot holds (R14). -/
def State.waitsWith (s : State) : Producer → Option TsqEntry
  | .mu => match s.mu with
    | .waiting e => some e
    | _ => none
  | .uc => s.uc.trunkWait
  | .dc => s.dc.trunkWait
  | .la => s.la.notice.map bracketExpiredNotice
  | .am => if s.am.pending then some (attentionNotice s.am) else none
  | .ss k => (s.ss.get k).notice.map (sweepEndNotice k)

/-- The first waiting producer in the arbiter's order, with its telegram (R15). -/
def State.firstWaiting (s : State) : Option (Producer × TsqEntry) :=
  producerOrder.findSome? fun p => (s.waitsWith p).map fun e => (p, e)

def TrunkPort.tsqHasRoom (p : TrunkPort) : Bool := decide (p.tsq.length < Config.tsqCapacity)

/-- The telegram enters the tail of TSQ. -/
def State.enterTsq (s : State) (e : TsqEntry) : State := s.setTsq (s.tp.tsq ++ [e])

/-! ## Delivery of a unit's outputs (R23, R24) -/

/-- The station of a list item, for a stop station (log 15): 63 where the item is undefined. -/
def itemStation (t : TableSet) (k : Nat) : Station :=
  match t.item k with
  | some i => i.station
  | none => broadcastStation

/-- A report to sweep `k`, applied at once; the sweep's item is then no longer outstanding and its set is released (R138).
A report to a sweep that is not RUNNING with its item outstanding does not arise and is dropped (log 18). -/
def State.report (s : State) (k : SweepId) (silent verdict : Bool) : State :=
  let c := s.ss.get k
  match c.state, c.outstanding with
  | .running, some (i, set) =>
    let c' := c.applyOutcome silent verdict (itemStation (s.ts.table set) i)
    State.checkDrain { s with ss := s.ss.set k { c' with outstanding := none } }
  | _, _ => s

/-- The end of a unit: the set is released and the classifier is IDLE (R19). -/
def State.endUnit (s : State) (d : Direction) : State := (s.setClassifier d .idle).checkDrain

/-- The classifier waits for room for the first of `outputs` (R24). -/
def State.stall (s : State) (d : Direction) (u : UnitOfWork) (outputs : List Output) (timer : Option Nat) : State :=
  s.setClassifier d (.stalled { u with outputs := outputs, holdTimer := timer })

/-- Delivers the outputs of a unit one after another until it ends or stalls (R23, R24, R75, R83 to R85). -/
def deliver (d : Direction) (u : UnitOfWork) : List Output → State → State
  | [], s => s.endUnit d
  | .mailbox c :: rest, s =>
    if s.mb.hasRoom then deliver d u rest { s with mb := s.mb.place c }
    else if s.config.policy = .lose then deliver d u rest (s.count .mailboxLost)
    else s.stall d u (.mailbox c :: rest) (some s.config.holdLimit)
  | .fieldQueue e :: rest, s =>
    if s.fsq.length < Config.fsqCapacity then deliver d u rest { s with fsq := s.fsq ++ [e] }
    else s.stall d u (.fieldQueue e :: rest) none
  | .trunkQueue e :: rest, s =>
    if s.tp.tsqHasRoom ∧ s.firstWaiting = none then deliver d u rest (s.enterTsq e)
    else s.stall d u (.trunkQueue e :: rest) none
  | .report k silent verdict :: rest, s => deliver d u rest (s.report k silent verdict)

/-! ## Admission to TSQ (R14, R15) -/

/-- A classifier is WORKING again and delivers `outputs` (R19). -/
def State.resume (s : State) (d : Direction) (u : UnitOfWork) (outputs : List Output) : State :=
  deliver d u outputs (s.setClassifier d (.working u))

/-- A stalled classifier whose waited output has been delivered goes on with the next (R19). -/
def State.goOn (s : State) (d : Direction) : State :=
  match s.classifier d with
  | .stalled u => s.resume d u u.outputs.tail
  | _ => s

/-- The telegram of a waiting producer enters TSQ, and the producer no longer waits (R15, R132, R145, R160, R164). -/
def State.giveSlot (s : State) (p : Producer) (e : TsqEntry) : State :=
  match p with
  | .mu => { s.enterTsq e with mu := .idle }
  | .uc => (s.enterTsq e).goOn .upstream
  | .dc => (s.enterTsq e).goOn .downstream
  | .la => let t := s.enterTsq e; { t with la := { t.la with notice := none } }
  | .am => let t := s.enterTsq e; { t with am := { t.am with pending := false, count := 0 } }
  | .ss k => let t := s.enterTsq e; { t with ss := t.ss.set k { t.ss.get k with notice := none } }

/-- As long as TSQ has a free slot and a producer waits, the arbiter gives the slot to the first that waits. -/
def serveUpTo : Nat → State → State
  | 0, s => s
  | n + 1, s =>
    if s.tp.tsqHasRoom then
      match s.firstWaiting with
      | some (p, e) => serveUpTo n (s.giveSlot p e)
      | none => s
    else s

/-- Admission as it stands after an act: at most as many telegrams enter as TSQ has slots. -/
def State.serve (s : State) : State := serveUpTo Config.tsqCapacity s

/-! ## Line changes and the start of the head of TSQ (R12, R13, R16, R17) -/

/-- A waiting field line change takes effect while the FLC is IDLE and the field framer in HUNT (R17). -/
def State.takeFieldChange (s : State) : State :=
  match s.fp.change with
  | some l =>
    if s.flc.state = .idle ∧ s.fp.framer = .hunt then { s with fp := { s.fp with line := l, change := none } } else s
  | none => s

/-- A waiting trunk line change takes effect once its response has been fully sent, the framer is in HUNT and the
transmitter idle (R16). -/
def State.takeTrunkChange (s : State) : State :=
  match s.tp.change with
  | some c =>
    if c.sent ∧ s.tp.framer = .hunt ∧ s.tp.sending = none then
      { s with tp := { s.tp with line := c.settings, change := none } }
    else s
  | none => s

/-- A trunk line change whose awaited response has been fully sent holds back TSQ (R13, R16). -/
def TrunkPort.blocked (p : TrunkPort) : Bool :=
  match p.change with
  | some c => c.sent
  | none => false

/-- The bytes of a telegram of TSQ on the trunk: the reply flag, the own address, and a check of its own (R2, R13). -/
def TrunkPort.trunkBytes (p : TrunkPort) (e : TsqEntry) : List Byte :=
  lineBytes (addressByte true false p.ownAddress) e.function e.payload

/-- The head of TSQ is started if the transmitter is idle and nothing holds it back; if pause alone holds it back, it is
counted once in trunk_pause_waits (R12, R13). A start frees a slot, which the arbiter gives away (R15). -/
def State.startHead (s : State) : State :=
  match s.tp.sending, s.tp.tsq with
  | none, e :: rest =>
    if s.tp.blocked then s
    else if s.tp.pause then
      if s.tp.headCounted then s
      else State.count { s with tp := { s.tp with headCounted := true } } .trunkPauseWaits
    else
      State.serve
        { s with
          tp := { s.tp with sending := some ⟨s.tp.trunkBytes e, e.awaited⟩, tsq := rest, headCounted := false } }
  | _, _ => s

/-- What the trunk side does at the end of an act: waiting producers are admitted to free slots, a trunk line change
that is due takes effect, and the head of TSQ is started if it may. -/
def State.serviceTrunk (s : State) : State := s.serve.takeTrunkChange.startHead

/-! ## The end of a field transaction (R113, R115) -/

/-- Settling begins with the settle time as it stands; a settle time of 0 ends it in the same act (R115). -/
def State.enterSettling (s : State) : State :=
  if s.config.settleTime = 0 then
    State.takeFieldChange { s with flc := { s.flc with state := .idle, record := none, window := .stopped, settle := none } }
  else
    { s with flc := { s.flc with state := .settling, window := .stopped, settle := some s.config.settleTime } }

/-- The outcome of a non-broadcast transaction is placed in FRQ, or discarded if abandoned, and settling begins (R113). -/
def State.closeTransaction (s : State) (o : FieldOutcome) : State :=
  match s.flc.record with
  | some r =>
    if r.abandoned then s.enterSettling
    else
      State.enterSettling
        { s with flc := { s.flc with frq := s.flc.frq ++ [⟨r.owner, r.station, r.function, o⟩] } }
  | none => s.enterSettling

/-! ## Management commands (R164 to R167) -/

/-- What an executed command leaves: the payload after the result code, the state, and whether a waiting trunk line
change awaits this response. -/
structure Done where
  data : List Byte
  state : State
  awaited : Bool

/-- A command's checks and effect on its payload (R165): a result other than OK leaves no state of its own, so it
changes nothing in the part. -/
abbrev Body := List Byte → State → Except Result Done

/-- OK with `data` and the state `s`. -/
def done (data : List Byte) (s : State) : Except Result Done := .ok ⟨data, s, false⟩

/-- The response asks for admission after the act of execution (R164). -/
def State.respond (s : State) (e : TsqEntry) : State := State.serve { s.serve with mu := .waiting e }

/-- A response asks for admission, and the trunk side does what then is due (R13, R164). Where the act of a command has
unblocked a full TSQ on an idle trunk, the response asks before the head is started, so the slot that the start frees goes to
the Management Unit ahead of a producer that waits already: that order is the model's choice (log 25). -/
def State.answer (s : State) (e : TsqEntry) : State := (s.respond e).serviceTrunk

/-- The response of a command and the state its execution leaves (R165, R166). -/
def runBody (body : Body) (t : Telegram) (s : State) : State × TsqEntry :=
  match body t.payload s with
  | .ok r => (r.state, ⟨t.function, Result.ok.code :: r.data, r.awaited⟩)
  | .error e => (s, ⟨t.function, [e.code], false⟩)

/-- The head of MCQ is taken: it leaves the queue, the hold output is compared, the Management Unit is EXECUTING (R164). -/
def State.takeCommand (s : State) (rest : List Telegram) : State := { s.setMcq rest with mu := .executing }

/-- The row's command is taken from MCQ, checked, executed and answered. Where the Management Unit is not IDLE or the head
of MCQ is not a command of the row, the row does not happen (log 3, log 9). -/
def manage (isRow : Telegram → Bool) (body : Body) (s : State) : State :=
  match s.mu, s.tp.mcq with
  | .idle, t :: rest =>
    if isRow t then
      let r := runBody body t (s.takeCommand rest)
      r.1.answer r.2
    else s
  | _, _ => s

/-- The telegram carries the command of that code. -/
def hasCode (code : Byte) (t : Telegram) : Bool := t.function == code

/-- The telegram carries a table command of that code and kind, or of no kind at all (log 9). -/
def hasKind (code : Byte) (position : Nat) (kind : TableKind) (t : Telegram) : Bool :=
  t.function == code &&
    match t.payload[position]?.bind TableKind.ofByte with
    | some k => k == kind
    | none => true

/-- The function byte names no command (R165). -/
def namesNoCommand (t : Telegram) : Bool := !commandCodes.contains t.function

end Sys2Proof.Machine
end

