-- ==== Sys2Proof/Machine/Accumulators.lean ====
section
/-! DEFINITION. The accumulator commands (R67 to R70). -/

namespace Sys2Proof.Machine

open Host (Outcome)

/-- The first accumulator and a count of at most `most`, within the bank (R67 to R69). -/
def rangeOk (first count : Byte) (most : Nat) : Bool :=
  decide (first.toNat ≤ 31) && decide (1 ≤ count.toNat) && decide (count.toNat ≤ most)
    && decide (first.toNat + count.toNat ≤ 32)

/-- ACC_READ's checks, images and clear (R67). -/
def accReadBody : Body := fun p s =>
  match p with
  | [first, count, flags] =>
    match readFlag0 flags with
    | none => .error .badArg
    | some clear =>
      if rangeOk first count 16 then
        done ([first, count]
            ++ (Sparse.getRun accumulatorDefault s.ab first.toNat count.toNat).flatMap Accumulator.image)
          (if clear then { s with ab := bankApply Accumulator.clear first.toNat count.toNat s.ab } else s)
      else .error .badArg
  | _ => .error .badLength

/-- ACC_READ. -/
def execAccRead (s : State) : Outcome State Fault Refusal := .next (manage (hasCode codeAccRead) accReadBody s)

/-- ACC_SETUP's checks and effect: the mode alone changes (R69). -/
def accSetupBody : Body := fun p s =>
  match p with
  | [first, count, mode] =>
    match AccMode.ofByte mode with
    | none => .error .badArg
    | some m =>
      if rangeOk first count 32 then
        done [] { s with ab := bankApply (fun a => { a with mode := m }) first.toNat count.toNat s.ab }
      else .error .badArg
  | _ => .error .badLength

/-- ACC_SETUP. -/
def execAccSetup (s : State) : Outcome State Fault Refusal := .next (manage (hasCode codeAccSetup) accSetupBody s)

/-- ACC_CLEAR's checks and effect: the modes are kept (R68). -/
def accClearBody : Body := fun p s =>
  match p with
  | [first, count] =>
    if rangeOk first count 32 then
      done [] { s with ab := bankApply Accumulator.clear first.toNat count.toNat s.ab }
    else .error .badArg
  | _ => .error .badLength

/-- ACC_CLEAR. -/
def execAccClear (s : State) : Outcome State Fault Refusal := .next (manage (hasCode codeAccClear) accClearBody s)

end Sys2Proof.Machine
end

