-- ==== Sys2Proof/Machine/Classify.lean ====
section
/-! DEFINITION. The two classifiers: dispatch, stages and disposition of a unit of work (chapters 2 and 5), the hold timers
and the mailbox slot that MAILBOX_TAKE frees. -/

namespace Sys2Proof.Machine

open Host (Outcome)

/-- What dispatch and the stages come to for one telegram: its result, verdict and disposition, the urgent flag of its
record, and the payload as the stages left it (R22, R28, R72). -/
structure Judged where
  result : Entry
  verdict : Bool
  disposition : Disposition
  urgent : Bool
  payload : List Byte
  deriving DecidableEq, Repr

/-- The unmatched disposition of a direction is DROP (R30). -/
def ConfigRecord.unmatchedDrops (c : ConfigRecord) : Direction → Bool
  | .downstream => c.downstreamDrops
  | .upstream => c.upstreamDrops

def Judged.pass (payload : List Byte) : Judged := ⟨.pass, true, .forward, false, payload⟩
def Judged.drop (payload : List Byte) : Judged := ⟨.drop, false, .drop, false, payload⟩

/-- What a record's run comes to (R52, R72). -/
def Judged.ofRun (n : Byte) (rec : ActionRecord) (run : StagesRun) : Judged :=
  ⟨.action n, run.verdict, if run.verdict then rec.onTrue else rec.onFalse, rec.urgent, run.payload⟩

/-- Dispatch and stages of a telegram under the held set (R22, R27 to R30). A void action counts and is a DROP (R29). -/
def State.judge (s : State) (d : Direction) (set : SetId) (t : Telegram) : Judged × State :=
  let table := s.ts.table set
  match lookupEntry table d (s.config.unmatchedDrops d) t.key with
  | .pass => (.pass t.payload, s)
  | .drop => (.drop t.payload, s)
  | .action n =>
    match table.record n.toNat with
    | none => (.drop t.payload, s.count .voidAction)
    | some rec =>
      let run := runStages table rec t.attentionFlag t.payload s.ab
      (.ofRun n rec run, { s with ab := run.bank })

def Disposition.forwards : Disposition → Bool
  | .forward => true
  | .forwardCopy => true
  | .drop => false
  | .copy => false

def Disposition.copies : Disposition → Bool
  | .copy => true
  | .forwardCopy => true
  | .forward => false
  | .drop => false

/-- The copy of a telegram in work (R81): the first 224 bytes of the payload as the stages left it. -/
def copyOf (d : Direction) (owner : Owner) (t : Telegram) (j : Judged) : MailboxCopy :=
  ⟨d, owner, j.result, j.verdict, t.payload.length, t.address, t.function, j.payload.take Config.mailboxPayload⟩

/-- The copy comes first, if the disposition has one (R23). -/
def copyOutput (d : Direction) (owner : Owner) (t : Telegram) (j : Judged) : List Output :=
  if j.disposition.copies then [.mailbox (copyOf d owner t j)] else []

/-- The outputs of a downstream disposition (R23, R75 to R77). -/
def downstreamOutputs (t : Telegram) (j : Judged) : List Output :=
  copyOutput .downstream .trunk t j ++
    if j.disposition.forwards then [.fieldQueue ⟨{ t with payload := j.payload }, j.urgent⟩]
    else if t.station = broadcastStation then []
    else [.trunkQueue (withheldNotice t.station t.function j.result)]

/-- A non-broadcast request that is not forwarded counts withheld when its disposition is chosen (R77). -/
def State.countWithheld (s : State) (t : Telegram) (j : Judged) : State :=
  if j.disposition.forwards ∨ t.station = broadcastStation then s else s.count .withheld

/-- A unit begins: its item and set are held, and its outputs are delivered until it ends or stalls (R19 to R24). -/
def State.beginUnit (s : State) (d : Direction) (u : UnitOfWork) : State := s.resume d u u.outputs

/-- A downstream unit (R22). -/
def State.downstreamUnit (s : State) (t : Telegram) : State :=
  let r := s.judge .downstream s.ts.live t
  (r.2.countWithheld t r.1).beginUnit .downstream
    ⟨.request t, s.ts.live, some r.1.result, r.1.verdict, downstreamOutputs t r.1, none⟩

/-- DOWNSTREAM_TAKE: the idle classifier takes the head of TRQ (R19, R20). -/
def execDownstreamTake (s : State) : Outcome State Fault Refusal :=
  match s.dc, s.tp.trq with
  | .idle, t :: rest => .next ((s.setTrq rest).downstreamUnit t).serviceTrunk
  | _, _ => .next s

/-- The output of a reply toward the next block (R23, R75, R78, R79). -/
def replyOutputs (owner : Owner) (t : Telegram) (j : Judged) : List Output :=
  match owner with
  | .trunk => if j.disposition.forwards then [.trunkQueue ⟨t.function, j.payload, false⟩] else []
  | .sweep k => [.report k false j.verdict]

/-- The one output of a silence unit (R31 to R33). -/
def silenceOutputs (r : OutcomeRecord) (corrupt : Bool) : List Output :=
  match r.owner with
  | .trunk => [.trunkQueue (noReplyNotice r.station r.function corrupt)]
  | .sweep k => [.report k true false]

/-- An upstream unit: a reply is dispatched like a request, a silence is completed without dispatch (R22, R31). -/
def State.upstreamUnit (s : State) (r : OutcomeRecord) : State :=
  match r.outcome with
  | .reply t =>
    let j := s.judge .upstream s.ts.live t
    j.2.beginUnit .upstream
      ⟨.outcome r, s.ts.live, some j.1.result, j.1.verdict,
        copyOutput .upstream r.owner t j.1 ++ replyOutputs r.owner t j.1, none⟩
  | .noReply => s.beginUnit .upstream ⟨.outcome r, s.ts.live, none, false, silenceOutputs r false, none⟩
  | .corrupt => s.beginUnit .upstream ⟨.outcome r, s.ts.live, none, false, silenceOutputs r true, none⟩

/-- UPSTREAM_TAKE: the idle classifier takes the head of FRQ (R19, R20). -/
def execUpstreamTake (s : State) : Outcome State Fault Refusal :=
  match s.uc, s.flc.frq with
  | .idle, r :: rest =>
    .next (State.upstreamUnit { s with flc := { s.flc with frq := rest } } r).serviceTrunk
  | _, _ => .next s

/-! ## The mailbox under HOLD (R85, R86) -/

/-- A classifier that waits for the mailbox, with its unit (R85). -/
def Classifier.waitsForMailbox : Classifier → Option UnitOfWork
  | .stalled u =>
    match u.outputs with
    | .mailbox _ :: _ => some u
    | _ => none
  | _ => none

/-- HOLD_TIMER_EXPIRY: the copy is lost and the classifier goes on with its next output (R85). -/
def execHoldTimerExpiry (d : Direction) (s : State) : Outcome State Fault Refusal :=
  match (s.classifier d).waitsForMailbox with
  | some u =>
    if u.holdTimer.isSome then .next ((s.count .mailboxLost).resume d u u.outputs.tail).serviceTrunk else .next s
  | none => .next s

/-- A freed slot of the mailbox is given to the Upstream Classifier if it waits, else to the Downstream Classifier (R86). -/
def State.giveMailboxSlot (s : State) : State :=
  match s.uc.waitsForMailbox, s.dc.waitsForMailbox with
  | some u, _ => s.resume .upstream u u.outputs
  | none, some u => s.resume .downstream u u.outputs
  | none, none => s

/-- MAILBOX_TAKE's effect and answer (R86, R175). -/
def mailboxTakeBody : Body := fun p s =>
  match p with
  | [] =>
    match s.mb.entries with
    | [] => .error .empty
    | e :: rest =>
      let s1 := State.giveMailboxSlot { s with mb := { s.mb with entries := rest } }
      done (bytesOf 1 s1.mb.entries.length ++ e.image) s1
  | _ => .error .badLength

/-- MAILBOX_TAKE. -/
def execMailboxTake (s : State) : Outcome State Fault Refusal :=
  .next (manage (hasCode codeMailboxTake) mailboxTakeBody s)

end Sys2Proof.Machine
end

