-- ==== Sys2Proof/Machine/FieldLine.lean ====
section
/-! DEFINITION. The field line: the Field Line Controller (chapter 7) and the Line Arbiter (chapter 8). -/

namespace Sys2Proof.Machine

open Host (Outcome)

/-! ## Starting a transaction (R105, R106) -/

/-- The record is made, the driver enable asserted, the field framer put in HUNT and the request handed to the
transmitter (R6, R104 to R106). -/
def State.startTransaction (s : State) (owner : Owner) (station : Station) (function : Byte) (payload : List Byte)
    (item : Option (Nat × SetId)) : State :=
  { s with
    flc :=
      { s.flc with
        state := .sending
        record := some ⟨owner, station, function, station == broadcastStation, false, item⟩
        window := .stopped
        settle := none }
    fp :=
      { s.fp with
        framer := .hunt
        driverEnable := true
        sending := some (lineBytes (addressByte false false station) function payload) } }

/-! ## Candidates and the decision (R121 to R125, R129) -/

/-- FRQ has a free slot (R114). -/
def FieldLineController.frqHasRoom (f : FieldLineController) : Bool := decide (f.frq.length < Config.frqCapacity)

/-- The trunk side is a candidate (R121). -/
def State.trunkCandidate (s : State) : Bool :=
  match s.fsq with
  | [] => false
  | e :: _ => e.telegram.station == broadcastStation || s.flc.frqHasRoom

/-- Sweep `k` is a candidate (R121). -/
def State.sweepCandidate (s : State) (k : SweepId) : Bool :=
  (s.ss.get k).state == .running && (s.ss.get k).outstanding.isNone && s.flc.frqHasRoom

/-- The sweep granted: the first candidate after the pointer, in cyclic order (R125). -/
def State.nextSweep (s : State) : Option SweepId :=
  [s.la.pointer + 1, s.la.pointer + 2, s.la.pointer + 3, s.la.pointer].find? s.sweepCandidate

/-- A side has work when it is a candidate (R121). -/
def State.hasWork (s : State) : Side → Bool
  | .trunk => s.trunkCandidate
  | .sweeps => s.nextSweep.isSome

def Side.other : Side → Side
  | .trunk => .sweeps
  | .sweeps => .trunk

/-- The head of FSQ carries the urgent flag (R124). -/
def State.urgentHead (s : State) : Bool :=
  match s.fsq with
  | [] => false
  | e :: _ => e.urgent

/-- The counter goes down by one; at 0 the other side becomes holder with a full counter (R123). -/
def LineArbiter.spend (la : LineArbiter) (limit : Nat) : LineArbiter :=
  if la.counter - 1 = 0 then { la with holder := la.holder.other, counter := limit }
  else { la with counter := la.counter - 1 }

/-- The side granted and the arbiter's state after the grant, or no decision (R122 to R124, R129). -/
def State.decideGrant (s : State) : Option (Side × LineArbiter) :=
  if s.la.bracket.isSome then
    if s.trunkCandidate then some (.trunk, { s.la with grants := countUp 65535 s.la.grants }) else none
  else if s.trunkCandidate ∧ s.urgentHead then
    some (.trunk, { s.la with holder := .trunk, counter := s.config.tenureLimit })
  else if s.hasWork s.la.holder then
    if s.hasWork s.la.holder.other then some (s.la.holder, s.la.spend s.config.tenureLimit)
    else some (s.la.holder, s.la)
  else if s.hasWork s.la.holder.other then
    some (s.la.holder.other, { s.la with holder := s.la.holder.other, counter := s.config.tenureLimit })
  else none

/-- A Downstream Classifier stalled on a full FSQ (R24). -/
def Classifier.waitsForFieldQueue : Classifier → Option UnitOfWork
  | .stalled u =>
    match u.outputs with
    | .fieldQueue _ :: _ => some u
    | _ => none
  | _ => none

/-- The slot of FSQ that a grant frees is the stalled Downstream Classifier's own (R24, R126). -/
def State.fillFieldQueue (s : State) : State :=
  match s.dc.waitsForFieldQueue with
  | some u => s.resume .downstream u u.outputs
  | none => s

/-- A trunk grant (R126). -/
def State.grantTrunk (s : State) : State :=
  match s.fsq with
  | [] => s
  | e :: rest =>
    let s1 := State.fillFieldQueue { s with fsq := rest }
    s1.startTransaction .trunk e.telegram.station e.telegram.function e.telegram.payload none

/-- A sweep grant: the item at the cursor is read from the live set and latched; an undefined item halts the sweep and
leaves the grant unused (R126, R136, R137). -/
def State.grantSweep (s : State) (k : SweepId) : State :=
  let c := s.ss.get k
  let table := s.ts.table s.ts.live
  match table.item c.cursor with
  | none => { s with ss := s.ss.set k (c.halt .listVoid broadcastStation) }
  | some i =>
    State.startTransaction
      { s with ss := s.ss.set k { c with outstanding := some (c.cursor, s.ts.live) } }
      (.sweep k) i.station i.function (table.patternRun i.pattern) (some (c.cursor, s.ts.live))

/-- A grant to one side, with the arbiter's new state; a sweep grant moves the pointer (R125, R126). -/
def State.grant (s : State) (side : Side) (la : LineArbiter) : State :=
  match side with
  | .trunk => State.grantTrunk { s with la := la }
  | .sweeps =>
    match s.nextSweep with
    | some k => State.grantSweep { s with la := { la with pointer := k } } k
    | none => { s with la := la }

/-- LINE_ARBITER_DECISION (R122): with the FLC IDLE, no field line change waiting and an allowed candidate. -/
def execLineArbiterDecision (s : State) : Outcome State Fault Refusal :=
  if s.flc.state = .idle ∧ s.fp.change = none then
    match s.decideGrant with
    | some (side, la) => .next (s.grant side la).serviceTrunk
    | none => .next s
  else .next s

/-! ## The course of a transaction (R106 to R112, R115, R116) -/

/-- REQUEST_SENT: the driver is released; AWAITING with the reply window started, or SETTLING for a broadcast (R106,
R107, R116). -/
def execRequestSent (s : State) : Outcome State Fault Refusal :=
  match s.flc.state, s.flc.record with
  | .sending, some r =>
    let s1 : State := { s with fp := { s.fp with driverEnable := false, sending := none } }
    if r.broadcast then .next s1.enterSettling
    else .next { s1 with flc := { s1.flc with state := .awaiting, window := .running s1.config.replyWindow } }
  | _, _ => .next s

/-- OPENING_BYTE_ARRIVES: in AWAITING the opening byte makes the FLC RECEIVING. Where the reply window's expiry was taken
first the framer takes the byte all the same, and the telegram it begins is unsolicited (R7, R108); that this row then
does what NEW_TELEGRAM_BEGUN does is the model's choice (log 22). No byte is received while the part drives the line
(R6). -/
def execOpeningByteArrives (s : State) : Outcome State Fault Refusal :=
  if s.fp.framer = .hunt then
    if s.flc.state = .awaiting then
      .next { s with fp := { s.fp with framer := .address }, flc := { s.flc with state := .receiving } }
    else if s.fp.driverEnable = false then .next { s with fp := { s.fp with framer := .address } }
    else .next s
  else .next s

/-- A good telegram answers the request of the record (R110, R111). -/
def Transaction.answeredBy (r : Transaction) (t : Telegram) : Bool :=
  t.replyFlag && t.station == r.station && t.function == r.function

/-- A mismatch: back to AWAITING, or NO_REPLY if the window expired during the reception (R110). -/
def State.mismatch (s : State) : State :=
  let s1 := s.count .fieldMismatch
  if s1.flc.window = .expired then (s1.count .fieldNoReply).closeTransaction .noReply
  else { s1 with flc := { s1.flc with state := .awaiting } }

/-- A telegram of the reply phase, judged (R109 to R112). -/
def State.judgeReply (s : State) (e : Ended) : State :=
  match e, s.flc.record with
  | .good t, some r => if r.answeredBy t then s.closeTransaction (.reply t) else s.mismatch
  | .good _, none => s
  | _, _ => (s.count .fieldCorrupt).closeTransaction .corrupt

/-- A telegram that the field framer has ended: judged in the reply phase, and otherwise unsolicited (R7). -/
def fieldEnded (s : State) (e : Ended) : State :=
  if s.flc.state = .receiving then s.judgeReply e
  else match e with
    | .good _ => s.count .fieldUnsolicited
    | _ => s

/-- An opening byte taken in AWAITING makes the FLC RECEIVING (R108). -/
def State.noteOpening (s : State) (before : Framer) : State :=
  if before = .hunt ∧ s.fp.framer = .address ∧ s.flc.state = .awaiting then
    { s with flc := { s.flc with state := .receiving } }
  else s

/-- A character on the field line; none is received while the part drives the line (R4, R6). -/
def fieldChar (s : State) (c : Rx) : State :=
  if s.fp.driverEnable then s
  else
    let r := s.fp.framer.take c
    let s1 := State.noteOpening { s with fp := { s.fp with framer := r.1 } } s.fp.framer
    match r.2 with
    | some e => fieldEnded s1 e
    | none => s1

/-- FIELD_TELEGRAM_END (R4, R7, R109 to R112); a field line change that waited for HUNT takes effect (R17). -/
def execFieldTelegramEnd (chars : List Rx) (s : State) : Outcome State Fault Refusal :=
  .next (chars.foldl fieldChar s).takeFieldChange

/-- REPLY_WINDOW_EXPIRY: NO_REPLY in AWAITING, noted in RECEIVING (R108, R112). -/
def execReplyWindowExpiry (s : State) : Outcome State Fault Refusal :=
  match s.flc.state, s.flc.window with
  | .awaiting, .running _ => .next ((s.count .fieldNoReply).closeTransaction .noReply)
  | .receiving, .running _ => .next { s with flc := { s.flc with window := .expired } }
  | _, _ => .next s

/-- SETTLE_TIMER_EXPIRY: the record is removed and the FLC is IDLE (R115); a field line change may take effect (R17). -/
def execSettleTimerExpiry (s : State) : Outcome State Fault Refusal :=
  if s.flc.state = .settling then
    .next (State.takeFieldChange
      { s with flc := { s.flc with state := .idle, record := none, window := .stopped, settle := none } })
  else .next s

/-! ## The bracket (R128 to R131) -/

/-- BRACKET_OPEN's checks and effect (R128). -/
def bracketOpenBody : Body := fun p s =>
  match p with
  | [hi, lo] =>
    if natOf [hi, lo] = 0 then .error .badArg
    else done []
      { s with
        la :=
          { s.la with
            bracket := some (natOf [hi, lo])
            grants := if s.la.bracket.isSome then s.la.grants else 0 } }
  | _ => .error .badLength

/-- BRACKET_OPEN. -/
def execBracketOpen (s : State) : Outcome State Fault Refusal :=
  .next (manage (hasCode codeBracketOpen) bracketOpenBody s)

/-- BRACKET_CLOSE's effect: no notice is made, and the grant count is kept (R130). -/
def bracketCloseBody : Body := fun p s =>
  match p with
  | [] => done [] { s with la := { s.la with bracket := none } }
  | _ => .error .badLength

/-- BRACKET_CLOSE. -/
def execBracketClose (s : State) : Outcome State Fault Refusal :=
  .next (manage (hasCode codeBracketClose) bracketCloseBody s)

/-- The expiry closes the bracket and fills the notice slot (R131). -/
def LineArbiter.expire (la : LineArbiter) : LineArbiter :=
  { la with
    bracket := none
    notice := match la.notice with
      | none => some ⟨1, la.grants⟩
      | some n => some ⟨countUp 255 n.expiries, la.grants⟩ }

/-- BRACKET_TIMER_EXPIRY: the timer runs only while the bracket is open (R131). -/
def execBracketTimerExpiry (s : State) : Outcome State Fault Refusal :=
  match s.la.bracket with
  | some _ => .next (State.serviceTrunk { s with la := s.la.expire })
  | none => .next s

end Sys2Proof.Machine
end

