-- ==== Sys2Proof/Machine/Management.lean ====
section
/-! DEFINITION. The commands of chapter 11: IDENTIFY, STATUS, COUNTERS, CONFIG_READ, CONFIG_WRITE, the unknown command,
RESTART and power-on reset. -/

namespace Sys2Proof.Machine

open Host (Outcome)

/-- A command without argument that changes nothing and answers `image`. -/
def imageBody (image : State → List Byte) : Body := fun p s =>
  match p with
  | [] => done (image s) s
  | _ => .error .badLength

/-- IDENTIFY (R169). -/
def execIdentify (s : State) : Outcome State Fault Refusal :=
  .next (manage (hasCode codeIdentify) (imageBody fun s => identifyImage s.tp.ownAddress) s)

/-- STATUS (R170). -/
def execStatus (s : State) : Outcome State Fault Refusal :=
  .next (manage (hasCode codeStatus) (imageBody statusImage) s)

/-- COUNTERS' reading and clear, in one act (R171). -/
def countersBody : Body := fun p s =>
  match p with
  | [flags] =>
    match readFlag0 flags with
    | none => .error .badArg
    | some clear => done s.counters.image (if clear then { s with counters := .zero } else s)
  | _ => .error .badLength

/-- COUNTERS (R171). -/
def execCounters (s : State) : Outcome State Fault Refusal := .next (manage (hasCode codeCounters) countersBody s)

/-- CONFIG_READ (R173). -/
def execConfigRead (s : State) : Outcome State Fault Refusal :=
  .next (manage (hasCode codeConfigRead) (imageBody fun s => s.config.image) s)

/-! ## CONFIG_WRITE (R16, R17, R127, R174) -/

def ConfigRecord.trunkSettings (c : ConfigRecord) : LineSettings := ⟨c.trunkRate, c.gap⟩
def ConfigRecord.fieldSettings (c : ConfigRecord) : LineSettings := ⟨c.fieldRate, c.gap⟩

/-- No telegram is awaited by a trunk line change any more. -/
def TrunkPort.forgetAwaited (p : TrunkPort) : TrunkPort :=
  { p with
    tsq := p.tsq.map fun e => { e with awaited := false }
    sending := p.sending.map fun x => { x with awaited := false } }

/-- The trunk line change that waits after a CONFIG_WRITE: for settings that differ from those in use. It replaces a change
that waits already, with the response that one awaits (R16). -/
def TrunkPort.offerChange (p : TrunkPort) (l : LineSettings) : TrunkPort :=
  { p.forgetAwaited with change := if l = p.line then none else some ⟨l, false⟩ }

/-- The field line change that waits after a CONFIG_WRITE (R17). -/
def FieldPort.offerChange (p : FieldPort) (l : LineSettings) : FieldPort :=
  { p with change := if l = p.line then none else some l }

/-- A trunk line change waits, and the record `c` has the trunk rate and the gap limit of the record that stands: by R173
and R174 the change is left alone, by R16 it is offered again. Which of the two is a free value (log 11). -/
def State.leavesTrunkChange (s : State) (c : ConfigRecord) : Bool :=
  s.tp.change.isSome && c.trunkSettings == s.config.trunkSettings && Config.repeatLeavesTrunkChange

/-- The record takes all the new values, and each reaches its block (R174, section 11.5): the tenure counter is lowered
to the limit if above it (R127), and the line changes wait or, on the field line, may take effect at once (R16, R17). -/
def State.configure (s : State) (c : ConfigRecord) : State :=
  State.takeFieldChange
    { s with
      config := c
      la := { s.la with counter := min s.la.counter c.tenureLimit }
      tp := if s.leavesTrunkChange c then s.tp else s.tp.offerChange c.trunkSettings
      fp := s.fp.offerChange c.fieldSettings }

/-- CONFIG_WRITE's checks and effect; a trunk line change that it makes wait awaits this response (R16, R174). -/
def configWriteBody : Body := fun p s =>
  if p.length = 11 then
    match ConfigRecord.ofImage p with
    | none => .error .badArg
    | some c => .ok ⟨[], s.configure c, !s.leavesTrunkChange c && (s.configure c).tp.change.isSome⟩
  else .error .badLength

/-- CONFIG_WRITE (R174). -/
def execConfigWrite (s : State) : Outcome State Fault Refusal :=
  .next (manage (hasCode codeConfigWrite) configWriteBody s)

/-- UNKNOWN_COMMAND: the function byte names no command (R165). -/
def execUnknownCommand (s : State) : Outcome State Fault Refusal :=
  .next (manage namesNoCommand (fun _ _ => .error .unknown) s)

/-! ## RESTART (R176) -/

/-- A trunk line change waits for a response that has not been fully sent (R16). -/
def TrunkPort.awaitsResponse (p : TrunkPort) : Bool :=
  match p.change with
  | some c => !c.sent
  | none => false

/-- The Trunk Port after RESTART: the queues empty, the RESTART response alone in TSQ (R10, R18). A change that waits for
a response not fully sent waits for this one (R16). -/
def TrunkPort.restart (p : TrunkPort) : TrunkPort :=
  ({ p.forgetAwaited with
      trq := []
      mcq := []
      tsq := [⟨codeRestart, [Result.ok.code], p.awaitsResponse⟩]
      headCounted := false } : TrunkPort).compareHold

/-- The Field Line Controller after RESTART: the transaction goes on, marked abandoned, and FRQ is empty (R118). -/
def FieldLineController.restart (f : FieldLineController) : FieldLineController :=
  { f with record := f.record.map fun r => { r with abandoned := true }, frq := [] }

/-- RESTART, each block by its own rule, in one act (R176). -/
def State.restarted (s : State) : State :=
  State.checkDrain
    { s with
      tp := s.tp.restart
      dc := .idle
      uc := .idle
      mb := .powerOn
      flc := s.flc.restart
      fsq := []
      la := .cleared s.config.tenureLimit
      ss := s.ss.map Sweep.restart
      am := { s.am with count := 0, pending := false }
      mu := .idle }

/-- RESTART stands at the head of MCQ with no argument, and the Management Unit is IDLE. -/
def State.restartDue (s : State) : Bool :=
  match s.mu, s.tp.mcq with
  | .idle, t :: _ => hasCode codeRestart t && t.payload.isEmpty
  | _, _ => false

/-- RESTART; with any argument it is answered BAD_LENGTH and nothing is restarted (R176). -/
def execRestart (s : State) : Outcome State Fault Refusal :=
  if s.restartDue then .next s.restarted.serviceTrunk
  else .next (manage (hasCode codeRestart) (fun _ _ => .error .badLength) s)

/-! ## Power-on reset (R177) -/

/-- POWER_ON_RESET: every block takes its power-on values, with the straps and the attention level as they read; the pause
input keeps the level the outside drives (log 7). -/
def execPowerOnReset (straps : Station) (attention : Level) (s : State) : Outcome State Fault Refusal :=
  .next { State.powerOn straps attention s.tp.pause with pending := s.pending }

end Sys2Proof.Machine
end

