-- ==== Sys2Proof/Machine/Sweeps.lean ====
section
/-! DEFINITION. The sweep commands (R147 to R152), the period timer (R146) and the Attention Monitor (chapter 10). -/

namespace Sys2Proof.Machine

open Host (Outcome)

/-- Sweep `k` takes a new context. -/
def State.setSweep (s : State) (k : SweepId) (c : Sweep) : State := { s with ss := s.ss.set k c }

/-- The parameters SWEEP_LOAD carries after the sweep number: mode, first, count, retry limit, silence limit, period and
notify flag (R148). -/
structure SweepParams where
  mode : SweepMode
  first : Nat
  count : Nat
  retryLimit : Nat
  silenceLimit : Nat
  period : Nat
  notify : Bool
  deriving DecidableEq, Repr

/-- R148: the checks of the parameters; the image is of nine bytes. -/
def SweepParams.ofImage (image : List Byte) : Option SweepParams := do
  let mode ← SweepMode.ofByte (fieldByte image 0)
  let notify ← readFlag0 (fieldByte image 8)
  let first := fieldNat image 1 1
  let count := fieldNat image 2 2
  let retry := fieldNat image 4 1
  let silence := fieldNat image 5 1
  let period := fieldNat image 6 2
  if count = 0 ∨ 256 < count ∨ 256 < first + count ∨ retry = 0 ∨ 15 < silence ∨ (1 ≤ period ∧ period ≤ 9) then none
  else pure ⟨mode, first, count, retry, silence, period, notify⟩

/-- An accepted SWEEP_LOAD: the parameters replaced, the context IDLE at first, the notice slot left as it is (R148). -/
def Sweep.load (c : Sweep) (p : SweepParams) : Sweep :=
  { c with
    state := .idle, mode := p.mode, first := p.first, count := p.count, cursor := p.first, remaining := p.count,
    retryLimit := p.retryLimit, retryTally := 0, silenceLimit := p.silenceLimit, silenceRun := 0, period := p.period,
    periodTimer := none, notify := p.notify, rerun := false, stopPending := false, reason := .none, stopStation := 63,
    passes := 0 }

/-- SWEEP_LOAD: the sweep number, then BUSY, then the parameters (R147, R148). -/
def sweepLoadBody : Body := fun p s =>
  match p with
  | [k, m, f, c1, c0, r, q, p1, p0, n] =>
    match index4 k with
    | none => .error .badArg
    | some k =>
      if (s.ss.get k).state = .running then .error .busy
      else match SweepParams.ofImage [m, f, c1, c0, r, q, p1, p0, n] with
        | none => .error .badArg
        | some x => done [] (s.setSweep k ((s.ss.get k).load x))
  | _ => .error .badLength

/-- SWEEP_LOAD. -/
def execSweepLoad (s : State) : Outcome State Fault Refusal := .next (manage (hasCode codeSweepLoad) sweepLoadBody s)

/-- A command whose one argument is the sweep number (R147). -/
def sweepBody (act : SweepId → State → Except Result Done) : Body := fun p s =>
  match p with
  | [k] =>
    match index4 k with
    | none => .error .badArg
    | some k => act k s
  | _ => .error .badLength

/-- SWEEP_START (R149). -/
def startSweep (k : SweepId) (s : State) : Except Result Done :=
  if (s.ss.get k).state = .running then .error .busy else done [] (s.setSweep k (s.ss.get k).start)

def execSweepStart (s : State) : Outcome State Fault Refusal :=
  .next (manage (hasCode codeSweepStart) (sweepBody startSweep) s)

/-- A resumed context: RUNNING from its cursor, or from first when nothing of the pass is left (R150). -/
def Sweep.resume (c : Sweep) : Sweep :=
  let c1 : Sweep := { c with state := .running, retryTally := 0, silenceRun := 0 }
  if c1.remaining = 0 then { c1 with cursor := c1.first, remaining := c1.count } else c1

/-- SWEEP_RESUME (R150). -/
def resumeSweep (k : SweepId) (s : State) : Except Result Done :=
  if (s.ss.get k).state = .halted then done [] (s.setSweep k (s.ss.get k).resume) else .error .badState

def execSweepResume (s : State) : Outcome State Fault Refusal :=
  .next (manage (hasCode codeSweepResume) (sweepBody resumeSweep) s)

/-- A stopped context, by its state (R151). A stop that comes after an attention trigger began the pass halts the sweep,
as R151 and the table of R161 have it, and against that rule's last sentence (log 23). -/
def Sweep.stop (c : Sweep) : Sweep :=
  match c.state with
  | .idle => c
  | .halted => c
  | .waiting => { c with state := .idle, periodTimer := none }
  | .running => if c.outstanding.isSome then { c with stopPending := true } else c.halt .stopped broadcastStation

/-- SWEEP_STOP (R151). -/
def stopSweep (k : SweepId) (s : State) : Except Result Done := done [] (s.setSweep k (s.ss.get k).stop)

def execSweepStop (s : State) : Outcome State Fault Refusal :=
  .next (manage (hasCode codeSweepStop) (sweepBody stopSweep) s)

/-- SWEEP_READ (R152). -/
def readSweep (k : SweepId) (s : State) : Except Result Done := done (bytesOf 1 k.val ++ (s.ss.get k).image) s

def execSweepRead (s : State) : Outcome State Fault Refusal :=
  .next (manage (hasCode codeSweepRead) (sweepBody readSweep) s)

/-- The new pass of a WAITING sweep whose period timer expires: the silence run is kept (R146). -/
def Sweep.periodExpires (c : Sweep) : Sweep := { c.fromFirst with state := .running, periodTimer := none }

/-- PERIOD_TIMER_EXPIRY (R146). -/
def execPeriodTimerExpiry (k : SweepId) (s : State) : Outcome State Fault Refusal :=
  if (s.ss.get k).state = .waiting then .next (s.setSweep k (s.ss.get k).periodExpires) else .next s

/-! ## Attention (R157 to R161) -/

/-- The trigger goes to the bound sweep (R159, R161). -/
def State.triggerBound (s : State) : State :=
  match s.config.binding with
  | some k => s.setSweep k (s.ss.get k).trigger
  | none => s

/-- ATTENTION_ASSERTION: a change of the kept level from RELEASED to ASSERTED; while enabled it counts, makes the slot
pending and triggers the bound sweep (R157, R159). -/
def execAttentionAssertion (s : State) : Outcome State Fault Refusal :=
  match s.am.level with
  | .asserted => .next s
  | .released =>
    if s.config.attentionEnable then
      .next (State.triggerBound
        { s with am := { level := .asserted, count := countUp 255 s.am.count, pending := true } }).serviceTrunk
    else .next { s with am := { s.am with level := .asserted } }

/-- ATTENTION_RELEASE: no effect beyond the kept level (R157). -/
def execAttentionRelease (s : State) : Outcome State Fault Refusal :=
  .next { s with am := { s.am with level := .released } }

end Sys2Proof.Machine
end

