-- ==== Sys2Proof/Machine/Tables.lean ====
section
/-! DEFINITION. The Table Store: reads and writes of the table sets, publication and the copy (chapter 6, R53 to R57). -/

namespace Sys2Proof.Machine

open Host (Outcome)

/-! ## Selectors (section 12.6): the index and count limits that reads and writes share -/

def windowAt : List Byte → Option (Direction × Fin 4)
  | [d, w] =>
    match Direction.ofByte d, index4 w with
    | some dir, some k => some (dir, k)
    | _, _ => none
  | _ => none

/-- A run of 1..100 entries (R97). -/
def entriesAt : List Byte → Option (Nat × Nat)
  | [hi, lo, c] =>
    let start := natOf [hi, lo]
    if 2047 < start ∨ c.toNat = 0 ∨ 100 < c.toNat ∨ 2048 < start + c.toNat then none else some (start, c.toNat)
  | _ => none

/-- A run of 1..128 bytes of a translate table, as its index in the set (R98). -/
def translateAt : List Byte → Option (Nat × Nat)
  | [t, start, c] =>
    if 3 < t.toNat ∨ c.toNat = 0 ∨ 128 < c.toNat ∨ 256 < start.toNat + c.toNat then none
    else some (256 * t.toNat + start.toNat, c.toNat)
  | _ => none

/-- A run of 1..128 pattern bytes (R98). -/
def patternAt : List Byte → Option (Nat × Nat)
  | [hi, lo, c] =>
    let start := natOf [hi, lo]
    if 2047 < start ∨ c.toNat = 0 ∨ 128 < c.toNat ∨ 2048 < start + c.toNat then none else some (start, c.toNat)
  | _ => none

def delimiterAt : List Byte → Option Nat
  | [s] => if 7 < s.toNat then none else some s.toNat
  | _ => none

def indexAt : List Byte → Option Nat
  | [n] => some n.toNat
  | _ => none

/-! ## Reads (R100) -/

def readWindow (t : TableSet) (sel : List Byte) : Option (List Byte) :=
  (windowAt sel).map fun x => ((t.windows x.1).get x.2).image

def readEntries (t : TableSet) (sel : List Byte) : Option (List Byte) :=
  (entriesAt sel).map fun x => (Sparse.getRun entryDefault t.entries x.1 x.2).flatMap fun e => bytesOf 2 e.code

def readActionRecord (t : TableSet) (sel : List Byte) : Option (List Byte) :=
  (indexAt sel).map fun n => recordImage (t.record n)

def readTranslateBytes (t : TableSet) (sel : List Byte) : Option (List Byte) :=
  (translateAt sel).map fun x => Sparse.getRun translateDefault t.translate x.1 x.2

def readDelimiterSet (t : TableSet) (sel : List Byte) : Option (List Byte) :=
  (delimiterAt sel).map fun n =>
    delimitersImage fun v => Sparse.get delimiterDefault t.delimiters (256 * n + v)

def readPatternBytes (t : TableSet) (sel : List Byte) : Option (List Byte) :=
  (patternAt sel).map fun x => Sparse.getRun patternDefault t.pattern x.1 x.2

def readSweepItem (t : TableSet) (sel : List Byte) : Option (List Byte) :=
  (indexAt sel).map fun n => itemImage (t.item n)

/-- TABLE_READ of a kind whose selector has `n` bytes: the set's number, the state for the edit set, then the element's
limits (R100); a payload of another kind or length gives BAD_LENGTH (R165). -/
def tableReadBody (kind : TableKind) (n : Nat) (read : TableSet → List Byte → Option (List Byte)) : Body := fun p s =>
  match p with
  | setByte :: k :: sel =>
    if TableKind.ofByte k = some kind ∧ sel.length = n then
      match SetId.ofByte setByte with
      | none => .error .badArg
      | some i =>
        if i = s.ts.edit ∧ s.ts.state ≠ .editable then .error .busy
        else match read (s.ts.table i) sel with
          | none => .error .badArg
          | some image => done image s
    else .error .badLength
  | _ => .error .badLength

def execTableReadWindow (s : State) : Outcome State Fault Refusal :=
  .next (manage (hasKind codeTableRead 1 .window) (tableReadBody .window 2 readWindow) s)

def execTableReadEntries (s : State) : Outcome State Fault Refusal :=
  .next (manage (hasKind codeTableRead 1 .entries) (tableReadBody .entries 3 readEntries) s)

def execTableReadActionRecord (s : State) : Outcome State Fault Refusal :=
  .next (manage (hasKind codeTableRead 1 .actionRecord) (tableReadBody .actionRecord 1 readActionRecord) s)

def execTableReadTranslateBytes (s : State) : Outcome State Fault Refusal :=
  .next (manage (hasKind codeTableRead 1 .translateBytes) (tableReadBody .translateBytes 3 readTranslateBytes) s)

def execTableReadDelimiterSet (s : State) : Outcome State Fault Refusal :=
  .next (manage (hasKind codeTableRead 1 .delimiterSet) (tableReadBody .delimiterSet 1 readDelimiterSet) s)

def execTableReadPatternBytes (s : State) : Outcome State Fault Refusal :=
  .next (manage (hasKind codeTableRead 1 .patternBytes) (tableReadBody .patternBytes 3 readPatternBytes) s)

def execTableReadSweepItem (s : State) : Outcome State Fault Refusal :=
  .next (manage (hasKind codeTableRead 1 .sweepItem) (tableReadBody .sweepItem 1 readSweepItem) s)

/-! ## Writes (R53, R95 to R99) -/

/-- The selector and data of a kind, cut apart; `none` where the length does not fit (R165, R179). `counted` kinds carry
their count in the last byte of the selector, and `perElement` bytes for each element. -/
def cutWrite (selector : Nat) (dataBytes : List Byte → Nat) (rest : List Byte) : Option (List Byte × List Byte) :=
  let sel := rest.take selector
  if sel.length = selector ∧ rest.length = selector + dataBytes sel then some (sel, rest.drop selector) else none

/-- The count a selector carries in its last byte, as written. -/
def countOf (sel : List Byte) : Nat := (sel.getLastD 0).toNat

/-- The entries that a run of codes names, or none if any is not listed (R97). -/
def entriesOf : List Byte → Option (List Entry)
  | [] => some []
  | [_] => none
  | hi :: lo :: rest =>
    match Entry.ofCode (natOf [hi, lo]), entriesOf rest with
    | some e, some es => some (e :: es)
    | _, _ => none

def writeWindow (t : TableSet) (sel data : List Byte) : Option TableSet :=
  match windowAt sel, Window.ofImage data with
  | some (.downstream, k), some w => some { t with downstream := t.downstream.set k w }
  | some (.upstream, k), some w => some { t with upstream := t.upstream.set k w }
  | _, _ => none

def writeEntries (t : TableSet) (sel data : List Byte) : Option TableSet :=
  match entriesAt sel, entriesOf data with
  | some (start, _), some es => some { t with entries := Sparse.putRun entryDefault start es t.entries }
  | _, _ => none

def writeActionRecord (t : TableSet) (sel data : List Byte) : Option TableSet :=
  match indexAt sel, recordOfImage data with
  | some n, some r => some { t with records := Sparse.put recordDefault n r t.records }
  | _, _ => none

def writeTranslateBytes (t : TableSet) (sel data : List Byte) : Option TableSet :=
  (translateAt sel).map fun x => { t with translate := Sparse.putRun translateDefault x.1 data t.translate }

def writeDelimiterSet (t : TableSet) (sel data : List Byte) : Option TableSet :=
  (delimiterAt sel).map fun n =>
    { t with delimiters := Sparse.putRun delimiterDefault (256 * n) (delimitersOfImage data) t.delimiters }

def writePatternBytes (t : TableSet) (sel data : List Byte) : Option TableSet :=
  (patternAt sel).map fun x => { t with pattern := Sparse.putRun patternDefault x.1 data t.pattern }

def writeSweepItem (t : TableSet) (sel data : List Byte) : Option TableSet :=
  match indexAt sel, itemOfImage data with
  | some n, some i => some { t with items := Sparse.put itemDefault n i t.items }
  | _, _ => none

/-- TABLE_WRITE: BUSY outside EDITABLE, then the checks of its kind, then the edit set written whole (R95). -/
def tableWriteBody (kind : TableKind) (selector : Nat) (dataBytes : List Byte → Nat)
    (write : TableSet → List Byte → List Byte → Option TableSet) : Body := fun p s =>
  match p with
  | k :: rest =>
    if TableKind.ofByte k = some kind then
      match cutWrite selector dataBytes rest with
      | none => .error .badLength
      | some (sel, data) =>
        if s.ts.state ≠ .editable then .error .busy
        else match write (s.ts.table s.ts.edit) sel data with
          | none => .error .badArg
          | some t => done [] { s with ts := s.ts.withTable s.ts.edit t }
    else .error .badLength
  | [] => .error .badLength

def windowWriteBody : Body := tableWriteBody .window 2 (fun _ => 7) writeWindow
def entriesWriteBody : Body := tableWriteBody .entries 3 (fun sel => 2 * countOf sel) writeEntries
def actionRecordWriteBody : Body := tableWriteBody .actionRecord 1 (fun _ => 35) writeActionRecord
def translateWriteBody : Body := tableWriteBody .translateBytes 3 countOf writeTranslateBytes
def delimiterWriteBody : Body := tableWriteBody .delimiterSet 1 (fun _ => 32) writeDelimiterSet
def patternWriteBody : Body := tableWriteBody .patternBytes 3 countOf writePatternBytes
def sweepItemWriteBody : Body := tableWriteBody .sweepItem 1 (fun _ => 5) writeSweepItem

def execTableWriteWindow (s : State) : Outcome State Fault Refusal :=
  .next (manage (hasKind codeTableWrite 0 .window) windowWriteBody s)

def execTableWriteEntries (s : State) : Outcome State Fault Refusal :=
  .next (manage (hasKind codeTableWrite 0 .entries) entriesWriteBody s)

def execTableWriteActionRecord (s : State) : Outcome State Fault Refusal :=
  .next (manage (hasKind codeTableWrite 0 .actionRecord) actionRecordWriteBody s)

def execTableWriteTranslateBytes (s : State) : Outcome State Fault Refusal :=
  .next (manage (hasKind codeTableWrite 0 .translateBytes) translateWriteBody s)

def execTableWriteDelimiterSet (s : State) : Outcome State Fault Refusal :=
  .next (manage (hasKind codeTableWrite 0 .delimiterSet) delimiterWriteBody s)

def execTableWritePatternBytes (s : State) : Outcome State Fault Refusal :=
  .next (manage (hasKind codeTableWrite 0 .patternBytes) patternWriteBody s)

def execTableWriteSweepItem (s : State) : Outcome State Fault Refusal :=
  .next (manage (hasKind codeTableWrite 0 .sweepItem) sweepItemWriteBody s)

/-! ## Publication and the copy (R91 to R94) -/

/-- The flip: the selector names the other set, the number moves, and the Table Store drains or copies (R91, R92). -/
def State.publish (s : State) : State :=
  { s with
    ts :=
      { s.ts with
        live := s.ts.live.other
        publication := s.ts.publication + 1
        state := if s.isHeld s.ts.live then .draining else .copying } }

/-- PUBLISH's check, effect and answer (R92). -/
def publishBody : Body := fun p s =>
  match p with
  | [] =>
    if s.ts.state ≠ .editable then .error .busy
    else done (bytesOf 2 s.publish.ts.publication.toNat ++ [s.publish.ts.live.code]) s.publish
  | _ => .error .badLength

/-- PUBLISH. -/
def execPublish (s : State) : Outcome State Fault Refusal := .next (manage (hasCode codePublish) publishBody s)

/-- COPY_END: the edit set is equal to the live set, and the Table Store is EDITABLE (R94). -/
def execCopyEnd (s : State) : Outcome State Fault Refusal :=
  if s.ts.state = .copying then
    .next { s with ts := { s.ts.withTable s.ts.edit (s.ts.table s.ts.live) with state := .editable } }
  else .next s

end Sys2Proof.Machine
end

