-- ==== Sys2Proof/Machine/TrunkPort.lean ====
section
/-! DEFINITION. The events of the lines' framers, the pause input and the trunk transmitter (chapter 1). -/

namespace Sys2Proof.Machine

open Host (Outcome)

/-- Sorting of a telegram that the trunk framer has ended (R9). -/
def sortTrunk (s : State) : Ended → State
  | .malformed => s.count .trunkMalformed
  | .corrupt => s.count .trunkCorrupt
  | .good t =>
    if t.replyFlag ∨ t.attentionFlag then s.count .trunkMalformed
    else if t.station = s.tp.ownAddress ∧ s.tp.ownAddress ≠ broadcastStation then
      if s.tp.mcq.length < Config.mcqCapacity then s.setMcq (s.tp.mcq ++ [t]) else s.count .commandOverrun
    else if s.tp.trq.length < Config.trqCapacity then s.setTrq (s.tp.trq ++ [t])
    else s.count .trunkOverrun

/-- TRUNK_TELEGRAM_END: the characters move the framer (R4), and each telegram they end is sorted (R9); a trunk line
change that waited for the framer takes effect (R16). -/
def execTrunkTelegramEnd (chars : List Rx) (s : State) : Outcome State Fault Refusal :=
  let r := s.tp.framer.takeAll chars
  .next (r.2.foldl sortTrunk { s with tp := { s.tp with framer := r.1 } }).serviceTrunk

/-- The gap limit on the trunk: a telegram in progress is abandoned as malformed (R5, R9). No silence is timed in HUNT. -/
def trunkGap (s : State) : State :=
  if s.tp.framer = .hunt then s
  else (sortTrunk { s with tp := { s.tp with framer := .hunt } } .malformed).serviceTrunk

/-- The gap limit on the field line: a telegram in progress is abandoned as malformed (R5, R7, R109). -/
def fieldGap (s : State) : State :=
  if s.fp.framer = .hunt then s
  else (fieldEnded { s with fp := { s.fp with framer := .hunt } } .malformed).takeFieldChange

/-- GAP_LIMIT_EXPIRY (R5). -/
def execGapLimitExpiry (line : Line) (s : State) : Outcome State Fault Refusal :=
  match line with
  | .trunk => .next (trunkGap s)
  | .field => .next (fieldGap s)

/-- TRUNK_PAUSE_ASSERT (R12). -/
def execTrunkPauseAssert (s : State) : Outcome State Fault Refusal :=
  .next { s with tp := { s.tp with pause := true } }

/-- TRUNK_PAUSE_RELEASE: the head of TSQ is started if the other conditions hold (R12, R13). -/
def execTrunkPauseRelease (s : State) : Outcome State Fault Refusal :=
  .next (State.serviceTrunk { s with tp := { s.tp with pause := false } })

/-- The end of a telegram on the trunk transmit pair: a change that awaited it knows it has been fully sent (R16). -/
def TrunkPort.endSending (p : TrunkPort) (x : TrunkSend) : TrunkPort :=
  { p with
    sending := none
    change := if x.awaited then p.change.map fun c => { c with sent := true } else p.change }

/-- TRUNK_TELEGRAM_SENT (R13). -/
def execTrunkTelegramSent (s : State) : Outcome State Fault Refusal :=
  match s.tp.sending with
  | some x => .next (State.serviceTrunk { s with tp := s.tp.endSending x })
  | none => .next s

/-- NEW_TELEGRAM_BEGUN: a framer in HUNT receives the opening byte (R4); on the field line this is the row outside
AWAITING, and the receiver is off while the part drives the line (R6). -/
def execNewTelegramBegun (line : Line) (s : State) : Outcome State Fault Refusal :=
  match line with
  | .trunk =>
    if s.tp.framer = .hunt then .next { s with tp := { s.tp with framer := .address } } else .next s
  | .field =>
    if s.fp.framer = .hunt ∧ s.flc.state ≠ .awaiting ∧ s.fp.driverEnable = false then
      .next { s with fp := { s.fp with framer := .address } }
    else .next s

end Sys2Proof.Machine
end

