-- ==== Sys2Proof/Machine/Dispatch.lean ====
section
/-! DEFINITION. Every command to its meaning: one arm per constructor of Instr. -/

namespace Sys2Proof.Machine

def exec (i : Instr) (s : State) : Host.Outcome State Fault Refusal :=
  match i with
  | .powerOnReset straps attention => Sys2Proof.Machine.execPowerOnReset straps attention s
  | .trunkTelegramEnd chars => Sys2Proof.Machine.execTrunkTelegramEnd chars s
  | .gapLimitExpiry line => Sys2Proof.Machine.execGapLimitExpiry line s
  | .trunkPauseAssert => Sys2Proof.Machine.execTrunkPauseAssert s
  | .trunkPauseRelease => Sys2Proof.Machine.execTrunkPauseRelease s
  | .trunkTelegramSent => Sys2Proof.Machine.execTrunkTelegramSent s
  | .downstreamTake => Sys2Proof.Machine.execDownstreamTake s
  | .upstreamTake => Sys2Proof.Machine.execUpstreamTake s
  | .holdTimerExpiry classifier => Sys2Proof.Machine.execHoldTimerExpiry classifier s
  | .lineArbiterDecision => Sys2Proof.Machine.execLineArbiterDecision s
  | .requestSent => Sys2Proof.Machine.execRequestSent s
  | .openingByteArrives => Sys2Proof.Machine.execOpeningByteArrives s
  | .fieldTelegramEnd chars => Sys2Proof.Machine.execFieldTelegramEnd chars s
  | .replyWindowExpiry => Sys2Proof.Machine.execReplyWindowExpiry s
  | .settleTimerExpiry => Sys2Proof.Machine.execSettleTimerExpiry s
  | .copyEnd => Sys2Proof.Machine.execCopyEnd s
  | .bracketTimerExpiry => Sys2Proof.Machine.execBracketTimerExpiry s
  | .periodTimerExpiry sweep => Sys2Proof.Machine.execPeriodTimerExpiry sweep s
  | .attentionAssertion => Sys2Proof.Machine.execAttentionAssertion s
  | .attentionRelease => Sys2Proof.Machine.execAttentionRelease s
  | .identify => Sys2Proof.Machine.execIdentify s
  | .status => Sys2Proof.Machine.execStatus s
  | .counters => Sys2Proof.Machine.execCounters s
  | .configRead => Sys2Proof.Machine.execConfigRead s
  | .configWrite => Sys2Proof.Machine.execConfigWrite s
  | .tableReadWindow => Sys2Proof.Machine.execTableReadWindow s
  | .tableReadEntries => Sys2Proof.Machine.execTableReadEntries s
  | .tableReadActionRecord => Sys2Proof.Machine.execTableReadActionRecord s
  | .tableReadTranslateBytes => Sys2Proof.Machine.execTableReadTranslateBytes s
  | .tableReadDelimiterSet => Sys2Proof.Machine.execTableReadDelimiterSet s
  | .tableReadPatternBytes => Sys2Proof.Machine.execTableReadPatternBytes s
  | .tableReadSweepItem => Sys2Proof.Machine.execTableReadSweepItem s
  | .tableWriteWindow => Sys2Proof.Machine.execTableWriteWindow s
  | .tableWriteEntries => Sys2Proof.Machine.execTableWriteEntries s
  | .tableWriteActionRecord => Sys2Proof.Machine.execTableWriteActionRecord s
  | .tableWriteTranslateBytes => Sys2Proof.Machine.execTableWriteTranslateBytes s
  | .tableWriteDelimiterSet => Sys2Proof.Machine.execTableWriteDelimiterSet s
  | .tableWritePatternBytes => Sys2Proof.Machine.execTableWritePatternBytes s
  | .tableWriteSweepItem => Sys2Proof.Machine.execTableWriteSweepItem s
  | .publish => Sys2Proof.Machine.execPublish s
  | .accRead => Sys2Proof.Machine.execAccRead s
  | .accSetup => Sys2Proof.Machine.execAccSetup s
  | .accClear => Sys2Proof.Machine.execAccClear s
  | .sweepLoad => Sys2Proof.Machine.execSweepLoad s
  | .sweepStart => Sys2Proof.Machine.execSweepStart s
  | .sweepResume => Sys2Proof.Machine.execSweepResume s
  | .sweepStop => Sys2Proof.Machine.execSweepStop s
  | .sweepRead => Sys2Proof.Machine.execSweepRead s
  | .mailboxTake => Sys2Proof.Machine.execMailboxTake s
  | .bracketOpen => Sys2Proof.Machine.execBracketOpen s
  | .bracketClose => Sys2Proof.Machine.execBracketClose s
  | .restart => Sys2Proof.Machine.execRestart s
  | .unknownCommand => Sys2Proof.Machine.execUnknownCommand s
  | .newTelegramBegun line => Sys2Proof.Machine.execNewTelegramBegun line s

end Sys2Proof.Machine
end

