-- ==== Sys2Proof/Machine/Tick.lean ====
section
/-! DEFINITION. One millisecond, which is what a step on an empty queue is (log 1): every running timer of the part has one
millisecond less to run. A timer never reaches its end here: its expiry is a row of the table (log 2). -/

namespace Sys2Proof.Machine

/-- One millisecond less, down to the last one. -/
def countDown (n : Nat) : Nat := max 1 (n - 1)

def WindowTimer.tick : WindowTimer → WindowTimer
  | .stopped => .stopped
  | .running n => .running (countDown n)
  | .expired => .expired

def UnitOfWork.tick (u : UnitOfWork) : UnitOfWork := { u with holdTimer := u.holdTimer.map countDown }

def Classifier.tick : Classifier → Classifier
  | .idle => .idle
  | .working u => .working u.tick
  | .stalled u => .stalled u.tick

def Sweep.tick (c : Sweep) : Sweep := { c with periodTimer := c.periodTimer.map countDown }

/-- The reply window, settle, hold, bracket and period timers run for one millisecond. -/
def State.tick (s : State) : State :=
  { s with
    flc := { s.flc with window := s.flc.window.tick, settle := s.flc.settle.map countDown }
    dc := s.dc.tick
    uc := s.uc.tick
    la := { s.la with bracket := s.la.bracket.map countDown }
    ss := s.ss.map Sweep.tick }

end Sys2Proof.Machine
end

