-- ==== Sys2Proof/Safety.lean ====
section
/-! DEFINITION. What a safe run of the part is: the invariants that the manual states of its queues, counts, tables,
sweeps, arbiter and lines, each a condition on one state, and the words that the statements use. -/

namespace Sys2Proof.Machine

/-! ## Words of the statements -/

/-- Telegram `t` stands at the head of MCQ, before `rest`, and the Management Unit is IDLE (R164). -/
def State.atHead (s : State) (t : Telegram) (rest : List Telegram) : Prop := s.mu = .idle ∧ s.tp.mcq = t :: rest

/-- The response OK of command `code` with `data` after the result code (R166). -/
def okResponse (code : Byte) (data : List Byte) : TsqEntry := ⟨code, 0 :: data, false⟩

/-- A response that carries a result code alone (R166). -/
def bareResponse (code result : Byte) : TsqEntry := ⟨code, [result], false⟩

/-- A number in two bytes, most significant byte first (R178). -/
def twoBytes (n : Nat) : List Byte := [BitVec.ofNat 8 (n / 256), BitVec.ofNat 8 n]

/-- A set that consumers hold keeps the Table Store in DRAINING (R93): no release is overdue. -/
def State.drainHeld (s : State) : Prop := s.ts.state = .draining → s.isHeld s.ts.edit = true

/-- The response to a TABLE_READ of the length its kind has (R100): the set's number is checked first, then the state for
the edit set, then the selector; `image` is what the element reads as, or none where the selector is out of range. -/
def State.tableReadResponse (s : State) (set : Byte) (image : Option (TableSet → List Byte)) : TsqEntry :=
  if 2 ≤ set.toNat then bareResponse 0x20 2
  else
    let i : SetId := if set = 0 then .zero else .one
    if i ≠ s.ts.live ∧ s.ts.state ≠ .editable then bareResponse 0x20 1
    else match image with
      | none => bareResponse 0x20 2
      | some f => okResponse 0x20 (f (s.ts.table i))

/-- The edit set replaced whole; nothing else of the part changes (R95). -/
def State.withEdit (s : State) (t : TableSet) : State := { s with ts := s.ts.withTable s.ts.edit t }

/-- Nothing is due on the trunk side: no producer waits beside a free slot, the head of TSQ is not startable, no line
change is ready (R12 to R17); and a DRAINING Table Store has a holder of the edit set (R93). -/
structure State.Steady (s : State) : Prop where
  admitted : s.tp.tsq.length < 16 → s.firstWaiting = none
  started : s.tp.sending = none → s.tp.tsq ≠ [] → (s.tp.pause = true ∧ s.tp.headCounted = true) ∨ s.tp.blocked = true
  trunkChange : ∀ c, s.tp.change = some c → c.sent = true → s.tp.framer ≠ .hunt ∨ s.tp.sending ≠ none
  fieldChange : s.fp.change ≠ none → s.flc.state ≠ .idle ∨ s.fp.framer ≠ .hunt
  draining : s.ts.state = .draining → s.isHeld s.ts.edit = true

/-! ## Invariants -/

/-- A transaction is under way whose outcome will enter FRQ (R105). -/
def State.outcomeDue (s : State) : Prop :=
  s.flc.state = .awaiting ∨ s.flc.state = .receiving
    ∨ (s.flc.state = .sending ∧ ∃ r, s.flc.record = some r ∧ r.broadcast = false)

/-- No queue holds more than its capacity, and FRQ has room for the outcome that is due (R9, R10, R13, R76, R80, R105). -/
structure State.QueuesBounded (s : State) : Prop where
  trq : s.tp.trq.length ≤ 8
  mcq : s.tp.mcq.length ≤ 4
  tsq : s.tp.tsq.length ≤ 16
  fsq : s.fsq.length ≤ 16
  frq : s.flc.frq.length ≤ 4
  mailbox : s.mb.entries.length ≤ 8
  due : s.outcomeDue → s.flc.frq.length ≤ 3

/-- The Field Line Controller, its record and timers, the driver enable and the field framer agree (R6, R104, R106 to R108,
R115). -/
structure State.FieldLineConsistent (s : State) : Prop where
  record : s.flc.record = none ↔ s.flc.state = .idle
  driver : s.fp.driverEnable = true ↔ s.flc.state = .sending
  sending : s.fp.sending ≠ none ↔ s.flc.state = .sending
  awaitingFramer : s.flc.state = .awaiting → s.fp.framer = .hunt
  receivingFramer : s.flc.state = .receiving → s.fp.framer ≠ .hunt
  sendingFramer : s.flc.state = .sending → s.fp.framer = .hunt
  window : s.flc.window ≠ .stopped ↔ s.flc.state = .awaiting ∨ s.flc.state = .receiving
  expired : s.flc.window = .expired → s.flc.state = .receiving
  settle : s.flc.settle ≠ none ↔ s.flc.state = .settling

/-- Every counter is within its 16 bits (R172). -/
def Counters.bounded (c : Counters) : Prop := ∀ k, c.get k ≤ 65535

/-- An accumulator lies within the ranges of R58. -/
def Accumulator.inRange (a : Accumulator) : Prop :=
  -140737488355328 ≤ a.sum ∧ a.sum ≤ 140737488355327 ∧ a.samples ≤ 4294967295 ∧ -32768 ≤ a.tally ∧ a.tally ≤ 32767

/-- The numbers of a defined record that the accumulator arithmetic reads lie in their ranges (R34, R54). -/
def ActionRecord.numbersInRange (r : ActionRecord) : Prop :=
  (∀ c, r.adjust = some c → -999999999 ≤ c ∧ c ≤ 999999999)
    ∧ (∀ a, r.accumulate = some a → -32767 ≤ a.weight ∧ a.weight ≤ 32767 ∧ -15 ≤ a.scale ∧ a.scale ≤ 1)

/-- Every defined record of a set has its numbers in range. -/
def TableSet.recordsInRange (t : TableSet) : Prop := ∀ n r, t.record n = some r → r.numbersInRange

/-- Every accumulator is in range, and every record that may add into one has its numbers in range (R54, R58). -/
structure State.AccumulatorsInRange (s : State) : Prop where
  bank : ∀ n, (bankGet s.ab n).inRange
  set0 : s.ts.set0.recordsInRange
  set1 : s.ts.set1.recordsInRange

/-- The arrays of both sets and the accumulator bank are in their canonical form (log 14). -/
structure State.TablesCanonical (s : State) : Prop where
  set0 : s.ts.set0.wf = true
  set1 : s.ts.set1.wf = true
  bank : Sparse.wf accumulatorDefault s.ab = true

/-- The position of a sweep in its pass (R134, R135). -/
structure Sweep.PositionOk (c : Sweep) : Prop where
  nonempty : 1 ≤ c.count
  above : c.first ≤ c.cursor
  below : c.cursor ≤ c.first + c.count
  top : c.first + c.count ≤ 256
  remaining : c.remaining = c.first + c.count - c.cursor
  running : c.state = .running → 1 ≤ c.remaining

def State.SweepPositionsOk (s : State) : Prop := ∀ k, (s.ss.get k).PositionOk

/-- A sweep has an item outstanding only while it is RUNNING, and its period timer runs exactly in WAITING (R136, R146). -/
structure Sweep.TimersOk (c : Sweep) : Prop where
  outstanding : c.outstanding ≠ none → c.state = .running
  timer : c.periodTimer ≠ none ↔ c.state = .waiting

def State.SweepTimersOk (s : State) : Prop := ∀ k, (s.ss.get k).TimersOk

/-- The tenure counter lies between 1 and the configured limit, 1..64 (R120, R123, R127). -/
structure State.TenureBounded (s : State) : Prop where
  counterLow : 1 ≤ s.la.counter
  counterHigh : s.la.counter ≤ s.config.tenureLimit
  limit : s.config.tenureLimit ≤ 64

/-- The fields of the configuration record lie in their ranges (section 11.5, R174). -/
structure ConfigRecord.InRange (c : ConfigRecord) : Prop where
  gap : 11 ≤ c.gap ∧ c.gap ≤ 255
  replyWindow : 1 ≤ c.replyWindow ∧ c.replyWindow ≤ 255
  settleTime : c.settleTime ≤ 255
  tenureLimit : 1 ≤ c.tenureLimit ∧ c.tenureLimit ≤ 64
  holdLimit : 1 ≤ c.holdLimit ∧ c.holdLimit ≤ 1000

/-- The assertion count is more than 0 exactly while the notice slot is pending, and at most 255 (R158). -/
structure State.AttentionConsistent (s : State) : Prop where
  pending : 0 < s.am.count ↔ s.am.pending = true
  bounded : s.am.count ≤ 255

/-- In EDITABLE and COPYING no consumer holds the edit set (R91). -/
def State.EditSetFree (s : State) : Prop := s.ts.state ≠ .draining → s.isHeld s.ts.edit = false

/-- Consecutive entries of the mailbox carry consecutive numbers, up to the next one (R82). -/
def Mailbox.numbered (m : Mailbox) : Prop :=
  ∀ i e, m.entries[i]? = some e → e.sequence = m.next - BitVec.ofNat 16 (m.entries.length - i)

/-- The hold output is asserted at 7 telegrams in TRQ or 3 in MCQ, released at 5 and 2 (R11). -/
structure State.HoldFollows (s : State) : Prop where
  asserted : 7 ≤ s.tp.trq.length ∨ 3 ≤ s.tp.mcq.length → s.tp.hold = true
  released : s.tp.trq.length ≤ 5 → s.tp.mcq.length ≤ 2 → s.tp.hold = false

/-- Between steps no classifier is WORKING and the Management Unit is not EXECUTING: each step is whole (log 5). -/
structure State.BetweenActs (s : State) : Prop where
  dc : ∀ u, s.dc ≠ .working u
  uc : ∀ u, s.uc ≠ .working u
  mu : s.mu ≠ .executing

end Sys2Proof.Machine
end

