-- ==== Sys2Proof/Certificates/Slice0/Obligations.lean ====
section
/-! DEFINITION. The statements for the provers: what the commands of the 4110 do, by the numbered rules of spec/, and the
invariants that every step keeps. -/

section

open Sys2Proof Sys2Proof.Machine

/-! ## Steps -/

/-- A step takes the command at the front of the queue and runs it on the state with the queue's rest. -/
def Obligations.StepRunsFrontCommand : Prop :=
  ∀ (c : Instr) (rest : List Instr) (s : State),
    step { s with pending := c :: rest } = exec c { s with pending := rest }

/-- On an empty queue a step is one millisecond (the model's choice, log 1): every running timer has one millisecond less
to run, but never less than one, and nothing else changes. -/
def Obligations.EmptyQueueStepIsOneMillisecond : Prop :=
  ∀ s : State, s.pending = [] →
    ∃ t : State, step s = .next t
      ∧ t = { s with flc := t.flc, dc := t.dc, uc := t.uc, la := t.la, ss := t.ss }
      ∧ t.flc = { s.flc with window := t.flc.window, settle := s.flc.settle.map fun n => max 1 (n - 1) }
      ∧ (t.flc.window = match s.flc.window with
          | .running n => .running (max 1 (n - 1))
          | w => w)
      ∧ t.la = { s.la with bracket := s.la.bracket.map fun n => max 1 (n - 1) }
      ∧ (∀ d, t.classifier d = match s.classifier d with
          | .idle => .idle
          | .working u => .working { u with holdTimer := u.holdTimer.map fun n => max 1 (n - 1) }
          | .stalled u => .stalled { u with holdTimer := u.holdTimer.map fun n => max 1 (n - 1) })
      ∧ ∀ k, t.ss.get k
          = { s.ss.get k with periodTimer := (s.ss.get k).periodTimer.map fun n => max 1 (n - 1) }

/-- No command stops the part, and none touches the queue of the commands behind it. That a command whose occasion does not
arise answers next (log 3), that a state which no run reaches does (log 18), and that every command, POWER_ON_RESET too,
keeps the queue (log 7, log 17), are the model's choices. -/
def Obligations.EveryCommandCompletes : Prop :=
  ∀ (c : Instr) (s : State), ∃ t : State, exec c s = .next t ∧ t.pending = s.pending

/-! ## Power-on reset and RESTART -/

/-- POWER_ON_RESET gives every block the values its chapter states; the straps and the attention level are those read then.
That the pause input keeps its level and the queue its commands is the model's choice (log 7). -/
def Obligations.PowerOnResetGivesPowerOnValues : Prop :=
  ∀ (straps : Station) (level : Level) (s : State), ∃ t : State, exec (.powerOnReset straps level) s = .next t
    ∧ t.tp.ownAddress = straps ∧ t.tp.framer = .hunt ∧ t.tp.trq = [] ∧ t.tp.mcq = [] ∧ t.tp.hold = false
    ∧ t.tp.pause = s.tp.pause ∧ t.tp.tsq = [] ∧ t.tp.sending = none ∧ t.tp.line = ⟨.r19200, 33⟩ ∧ t.tp.change = none
    ∧ t.fp.framer = .hunt ∧ t.fp.driverEnable = false ∧ t.fp.sending = none ∧ t.fp.line = ⟨.r19200, 33⟩
    ∧ t.fp.change = none
    ∧ t.flc.state = .idle ∧ t.flc.record = none ∧ t.flc.window = .stopped ∧ t.flc.settle = none ∧ t.flc.frq = []
    ∧ t.dc = .idle ∧ t.uc = .idle ∧ t.fsq = [] ∧ t.mb.entries = [] ∧ t.mb.next = 0
    ∧ (∀ n, bankGet t.ab n = ⟨0, 0, 0, false, .saturate⟩)
    ∧ t.ts.live = .zero ∧ t.ts.publication = 0 ∧ t.ts.state = .editable
    ∧ t.la = ⟨.trunk, 8, none, 0, 3, none⟩ ∧ t.am = ⟨0, false, level⟩ ∧ t.mu = .idle
    ∧ (∀ k, t.counters.get k = 0)
    ∧ t.config = ⟨.r19200, .r19200, 33, 20, 2, 8, false, false, .lose, 100, false, none⟩
    ∧ t.pending = s.pending

/-- After POWER_ON_RESET both table sets hold the power-on contents (R102) and every sweep context the power-on values
(R156); no consumer holds a set. -/
def Obligations.PowerOnTablesAndSweeps : Prop :=
  ∀ (straps : Station) (level : Level) (s : State), ∃ t : State, exec (.powerOnReset straps level) s = .next t
    ∧ (∀ i : SetId,
        (∀ (d : Direction) (k : Fin 4), ((t.ts.table i).windows d).get k = ⟨false, 0, 0, 0⟩)
        ∧ (∀ n, (t.ts.table i).entry n = .pass)
        ∧ (∀ n, (t.ts.table i).record n = none)
        ∧ (∀ n b, (t.ts.table i).translated n b = b)
        ∧ (∀ n b, (t.ts.table i).isDelimiter n b = false)
        ∧ (∀ sp, (t.ts.table i).patternRun sp = List.replicate sp.length 0x20)
        ∧ (∀ n, (t.ts.table i).item n = none)
        ∧ t.isHeld i = false)
    ∧ t.ts.live = .zero ∧ t.ts.publication = 0 ∧ t.ts.state = .editable
    ∧ ∀ k, t.ss.get k =
        { state := .idle, mode := .every, first := 0, count := 1, cursor := 0, remaining := 1, retryLimit := 1,
          retryTally := 0, silenceLimit := 0, silenceRun := 0, period := 0, periodTimer := none, notify := false,
          rerun := false, stopPending := false, outstanding := none, reason := .none, stopStation := 63, passes := 0,
          notice := none }

/-- RESTART is one act over all blocks (R176): what each clears and keeps; then the trunk side goes on, with the RESTART
response alone in TSQ. A trunk line change that waits for a response not fully sent now waits for this one, and no telegram
being sent is awaited any more (R16; that a response still being sent counts as not fully sent is the model's reading,
log 12). -/
def Obligations.RestartIsOneAct : Prop :=
  ∀ (s : State) (t : Telegram) (rest : List Telegram), s.atHead t rest → t.function = 0x7F → t.payload = [] →
    ∃ u : State, exec .restart s = .next u.serviceTrunk
      ∧ u = { s with
          tp := u.tp, dc := .idle, uc := .idle, mb := ⟨[], 0⟩, flc := u.flc, fsq := [],
          la := ⟨.trunk, s.config.tenureLimit, none, 0, 3, none⟩, ss := u.ss,
          am := { s.am with count := 0, pending := false }, mu := .idle, ts := u.ts }
      ∧ u.tp = { s.tp with
          trq := [], mcq := [], hold := false, tsq := u.tp.tsq, headCounted := false, sending := u.tp.sending }
      ∧ u.tp.tsq = [⟨0x7F, [0], match s.tp.change with
          | some c => !c.sent
          | none => false⟩]
      ∧ u.tp.sending = s.tp.sending.map (fun x => { x with awaited := false })
      ∧ u.flc = { s.flc with record := u.flc.record, frq := [] }
      ∧ u.flc.record = s.flc.record.map (fun r => { r with abandoned := true })
      ∧ u.ts = { s.ts with state := if s.ts.state = .draining then .copying else s.ts.state }
      ∧ ∀ k, u.ss.get k =
          { s.ss.get k with
            state := .idle, cursor := (s.ss.get k).first, remaining := (s.ss.get k).count, retryTally := 0,
            silenceRun := 0, periodTimer := none, rerun := false, stopPending := false, outstanding := none,
            reason := .none, notice := none }

/-! ## Management telegrams -/

/-- The Management Unit takes the head of MCQ, which leaves the queue (the hold output follows), and the response enters TSQ
where there is room and no other producer waits, is started at once on an idle trunk, is counted where it is the first due
under pause, or waits, whoever else waits (R11 to R14, R164). Beside a full TSQ whose head may start, as a second CONFIG_WRITE
may leave it (R16), the response takes the slot of that head, whoever else waits (the model's choice, log 25). A command row does nothing while the Management Unit is not
IDLE or MCQ is empty: it takes nothing from MCQ then (R164), and that the row answers next is the model's choice (log 3). -/
def Obligations.ManagementTakesHeadAndAnswers : Prop :=
  (∀ (s : State) (rest : List Telegram), s.takeCommand rest =
      { s with
        mu := .executing
        tp := { s.tp with
          mcq := rest
          hold := if 7 ≤ s.tp.trq.length ∨ 3 ≤ rest.length then true
            else if s.tp.trq.length ≤ 5 ∧ rest.length ≤ 2 then false else s.tp.hold } })
  ∧ (∀ (s : State) (e : TsqEntry), s.mu = .executing → s.firstWaiting = none →
    (s.tp.tsq.length < 16 → s.tp.sending ≠ none →
      s.answer e = { s with mu := .idle, tp := { s.tp with tsq := s.tp.tsq ++ [e] } })
    ∧ (s.tp.tsq.length < 16 → s.tp.sending = none → s.tp.change = none → s.tp.pause = true → s.tp.headCounted = true →
      s.answer e = { s with mu := .idle, tp := { s.tp with tsq := s.tp.tsq ++ [e] } })
    ∧ (s.tp.tsq.length < 16 → s.tp.sending = none → s.tp.change = none → s.tp.pause = true → s.tp.headCounted = false →
      s.answer e = { s with
        mu := .idle
        tp := { s.tp with tsq := s.tp.tsq ++ [e], headCounted := true }
        counters := { s.counters with trunkPauseWaits := min (s.counters.trunkPauseWaits + 1) 65535 } })
    ∧ (s.tp.tsq = [] → s.tp.sending = none → s.tp.change = none → s.tp.pause = false →
      s.answer e = { s with
        mu := .idle
        tp := { s.tp with
          sending := some ⟨lineBytes (addressByte true false s.tp.ownAddress) e.function e.payload, e.awaited⟩
          headCounted := false } }))
  ∧ (∀ (s : State) (e : TsqEntry), s.mu = .executing → 16 ≤ s.tp.tsq.length →
    s.tp.sending ≠ none ∨ (s.tp.change = none ∧ s.tp.pause = true ∧ s.tp.headCounted = true) →
      s.answer e = { s with mu := .waiting e })
  ∧ (∀ (s : State) (h e : TsqEntry) (rest : List TsqEntry), s.mu = .executing → s.tp.tsq = h :: rest →
    rest.length = 15 → s.tp.sending = none → (∀ c, s.tp.change = some c → c.sent = false) → s.tp.pause = false →
      s.answer e = { s with
        mu := .idle
        tp := { s.tp with
          sending := some ⟨lineBytes (addressByte true false s.tp.ownAddress) h.function h.payload, h.awaited⟩
          tsq := rest ++ [e], headCounted := false } })
  ∧ ∀ (s : State) (c : Instr),
    c ∈ ([.identify, .status, .counters, .configRead, .configWrite, .tableReadWindow, .tableReadEntries,
      .tableReadActionRecord, .tableReadTranslateBytes, .tableReadDelimiterSet, .tableReadPatternBytes,
      .tableReadSweepItem, .tableWriteWindow, .tableWriteEntries, .tableWriteActionRecord, .tableWriteTranslateBytes,
      .tableWriteDelimiterSet, .tableWritePatternBytes, .tableWriteSweepItem, .publish, .accRead, .accSetup, .accClear,
      .sweepLoad, .sweepStart, .sweepResume, .sweepStop, .sweepRead, .mailboxTake, .bracketOpen, .bracketClose,
      .restart, .unknownCommand] : List Instr) →
    s.mu ≠ .idle ∨ s.tp.mcq = [] → exec c s = .next s

/-- A payload that does not fit its command is answered BAD_LENGTH, and a function byte that is none of the codes of section
11.1 is answered UNKNOWN under that byte; nothing else happens (R165, R166, R179). A table command that names no kind, or
ends before its kind code, is BAD_LENGTH too, by any of its seven rows (which row is the model's reading, log 9), and so is
a counted TABLE_WRITE that ends before its count byte (the model's reading, log 20). -/
def Obligations.UnfitCommandsAreRefused : Prop :=
  ∀ (s : State) (t : Telegram) (rest : List Telegram), s.atHead t rest →
    (∀ (c : Instr) (code : Byte) (n : Nat),
      (c, code, n) ∈ ([(.identify, 0x01, 0), (.status, 0x02, 0), (.counters, 0x03, 1), (.configRead, 0x10, 0),
        (.configWrite, 0x11, 11), (.publish, 0x22, 0), (.accRead, 0x30, 3), (.accSetup, 0x31, 3), (.accClear, 0x32, 2),
        (.sweepLoad, 0x40, 10), (.sweepStart, 0x41, 1), (.sweepResume, 0x42, 1), (.sweepStop, 0x43, 1),
        (.sweepRead, 0x44, 1), (.mailboxTake, 0x50, 0), (.bracketOpen, 0x60, 2), (.bracketClose, 0x61, 0),
        (.restart, 0x7F, 0)] : List (Instr × Byte × Nat)) →
      t.function = code → t.payload.length ≠ n →
      exec c s = .next ((s.takeCommand rest).answer (bareResponse code 3)))
    ∧ (t.function ∉ ([0x01, 0x02, 0x03, 0x10, 0x11, 0x20, 0x21, 0x22, 0x30, 0x31, 0x32, 0x40, 0x41, 0x42, 0x43, 0x44,
        0x50, 0x60, 0x61, 0x7F] : List Byte) →
      exec .unknownCommand s = .next ((s.takeCommand rest).answer (bareResponse t.function 4)))
    ∧ (∀ (c : Instr) (kind : Byte) (n : Nat) (set : Byte) (sel : List Byte),
      (c, kind, n) ∈ ([(.tableReadWindow, 1, 2), (.tableReadEntries, 2, 3), (.tableReadActionRecord, 3, 1),
        (.tableReadTranslateBytes, 4, 3), (.tableReadDelimiterSet, 5, 1), (.tableReadPatternBytes, 6, 3),
        (.tableReadSweepItem, 7, 1)] : List (Instr × Byte × Nat)) →
      t.function = 0x20 → t.payload = set :: kind :: sel → sel.length ≠ n →
      exec c s = .next ((s.takeCommand rest).answer (bareResponse 0x20 3)))
    ∧ (∀ (c : Instr) (kind : Byte) (n : Nat) (body : List Byte),
      (c, kind, n) ∈ ([(.tableWriteWindow, 1, 9), (.tableWriteActionRecord, 3, 36), (.tableWriteDelimiterSet, 5, 33),
        (.tableWriteSweepItem, 7, 6)] : List (Instr × Byte × Nat)) →
      t.function = 0x21 → t.payload = kind :: body → body.length ≠ n →
      exec c s = .next ((s.takeCommand rest).answer (bareResponse 0x21 3)))
    ∧ (∀ (c : Instr) (kind : Byte) (size : Nat) (a b count : Byte) (data : List Byte),
      (c, kind, size) ∈ ([(.tableWriteEntries, 2, 2), (.tableWriteTranslateBytes, 4, 1),
        (.tableWritePatternBytes, 6, 1)] : List (Instr × Byte × Nat)) →
      t.function = 0x21 → t.payload = kind :: a :: b :: count :: data → data.length ≠ size * count.toNat →
      exec c s = .next ((s.takeCommand rest).answer (bareResponse 0x21 3)))
    ∧ (∀ (c : Instr) (kind : Byte) (sel : List Byte),
      (c, kind) ∈ ([(.tableWriteEntries, 2), (.tableWriteTranslateBytes, 4), (.tableWritePatternBytes, 6)] :
        List (Instr × Byte)) →
      t.function = 0x21 → t.payload = kind :: sel → sel.length < 3 →
      exec c s = .next ((s.takeCommand rest).answer (bareResponse 0x21 3)))
    ∧ (∀ c : Instr,
      c ∈ ([.tableReadWindow, .tableReadEntries, .tableReadActionRecord, .tableReadTranslateBytes,
        .tableReadDelimiterSet, .tableReadPatternBytes, .tableReadSweepItem] : List Instr) →
      t.function = 0x20 →
      t.payload.length < 2 ∨ (∃ set kind sel, t.payload = set :: kind :: sel ∧ (kind = 0 ∨ 7 < kind.toNat)) →
      exec c s = .next ((s.takeCommand rest).answer (bareResponse 0x20 3)))
    ∧ ∀ c : Instr,
      c ∈ ([.tableWriteWindow, .tableWriteEntries, .tableWriteActionRecord, .tableWriteTranslateBytes,
        .tableWriteDelimiterSet, .tableWritePatternBytes, .tableWriteSweepItem] : List Instr) →
      t.function = 0x21 →
      t.payload = [] ∨ (∃ kind body, t.payload = kind :: body ∧ (kind = 0 ∨ 7 < kind.toNat)) →
      exec c s = .next ((s.takeCommand rest).answer (bareResponse 0x21 3))

/-- IDENTIFY returns the part code 4110, revision 1, the own address and the capacities, in the layout of section 12.4, and
changes nothing (R169). -/
def Obligations.IdentifyReturnsTheCapacities : Prop :=
  ∀ (s : State) (t : Telegram) (rest : List Telegram), s.atHead t rest → t.function = 0x01 → t.payload = [] →
    exec .identify s = .next ((s.takeCommand rest).answer (okResponse 0x01
      [0x10, 0x0E, 1, BitVec.ofNat 8 s.tp.ownAddress.toNat, 8, 4, 16, 16, 4, 8, 32, 4, 4, 0x08, 0x00, 0x01, 0x00, 4, 8,
        0x08, 0x00, 0x01, 0x00]))

/-- STATUS returns its 30 bytes, read in one act, and CONFIG_READ the record as it stands, in the layouts of section 12.4;
neither changes anything (R170, R173). That the item and set bytes of a trunk-owned record are 0 is the model's choice
(log 24). -/
def Obligations.StatusAndConfigReadReturnImages : Prop :=
  (∀ (s : State) (t : Telegram) (rest : List Telegram), s.atHead t rest → t.function = 0x02 → t.payload = [] →
    ∃ data, exec .status s = .next ((s.takeCommand rest).answer (okResponse 0x02 data))
      ∧ data.length = 30
      ∧ data =
        [s.ts.state.code, s.ts.live.code] ++ twoBytes s.ts.publication.toNat ++ [s.flc.state.code]
          ++ (match s.flc.record with
            | none => [0, 0, 0, 0, 0, 0]
            | some r =>
              [if r.abandoned then 0xC0 else 0x80, r.owner.code, BitVec.ofNat 8 r.station.toNat, r.function]
                ++ (match r.item with
                  | none => [0, 0]
                  | some (index, set) => [BitVec.ofNat 8 index, set.code]))
          ++ [(if s.tp.change.isSome then 1 else 0) + (if s.fp.change.isSome then 2 else 0),
            if s.la.bracket.isSome then 1 else 0]
          ++ twoBytes (s.la.bracket.getD 0)
          ++ [s.la.holder.code, BitVec.ofNat 8 s.la.counter, s.dc.code, s.uc.code, BitVec.ofNat 8 s.tp.trq.length,
            BitVec.ofNat 8 rest.length, BitVec.ofNat 8 s.fsq.length, BitVec.ofNat 8 s.flc.frq.length,
            BitVec.ofNat 8 s.tp.tsq.length, BitVec.ofNat 8 s.mb.entries.length,
            (if s.am.level = .asserted then 1 else 0) + (if s.config.attentionEnable then 2 else 0),
            (s.ss.get 0).state.code, (s.ss.get 1).state.code, (s.ss.get 2).state.code, (s.ss.get 3).state.code])
  ∧ ∀ (s : State) (t : Telegram) (rest : List Telegram), s.atHead t rest → t.function = 0x10 → t.payload = [] →
    exec .configRead s = .next ((s.takeCommand rest).answer (okResponse 0x10
      ([s.config.trunkRate.code, s.config.fieldRate.code, BitVec.ofNat 8 s.config.gap, BitVec.ofNat 8 s.config.replyWindow,
        BitVec.ofNat 8 s.config.settleTime, BitVec.ofNat 8 s.config.tenureLimit,
        (if s.config.downstreamDrops then 1 else 0) + (if s.config.upstreamDrops then 2 else 0),
        if s.config.policy = .hold then 1 else 0] ++ twoBytes s.config.holdLimit
        ++ [(if s.config.attentionEnable then 0x80 else 0)
          + (match s.config.binding with
            | none => 0
            | some k => BitVec.ofNat 8 (k.val + 1))])))

/-- COUNTERS returns the twelve counters in the order of R172 and, with its flag, clears all of them in the same act; a
reserved bit gives BAD_ARG (R171, R178). -/
def Obligations.CountersAreReadAndCleared : Prop :=
  ∀ (s : State) (t : Telegram) (rest : List Telegram) (flags : Byte), s.atHead t rest → t.function = 0x03 →
    t.payload = [flags] →
    (flags.toNat ≤ 1 → ∃ u : State,
      exec .counters s = .next (u.answer (okResponse 0x03
        (([.trunkMalformed, .trunkCorrupt, .trunkOverrun, .commandOverrun, .fieldCorrupt, .fieldNoReply, .fieldMismatch,
          .fieldUnsolicited, .voidAction, .mailboxLost, .withheld, .trunkPauseWaits] : List Counter).flatMap
            fun k => twoBytes (s.counters.get k))))
      ∧ u = { s.takeCommand rest with counters := u.counters }
      ∧ (flags = 0 → u.counters = s.counters)
      ∧ (flags = 1 → ∀ k, u.counters.get k = 0))
    ∧ (1 < flags.toNat → exec .counters s = .next ((s.takeCommand rest).answer (bareResponse 0x03 2)))

/-- CONFIG_WRITE: any field out of its range gives BAD_ARG and keeps everything. Else the record takes every field, the tenure
counter is lowered to the limit if above it, and the line changes wait or, on an idle field line, take effect; a trunk change
that waits awaits this response, and no other telegram (R16, R17, R127, R174). Where a trunk change waits already and the
record repeats the trunk rate and the gap limit, R173 and R174 leave the change as it waits and R16 has it await this
response: the free value says which, and either value gives its rule's effect (log 11). A record that repeats the one that
stands changes nothing where its values are in use, and where they wait if R173 and R174 hold (R173, R174). -/
def Obligations.ConfigWriteIsCheckedWhole : Prop :=
  ∀ (s : State) (t : Telegram) (rest : List Telegram) (b0 b1 b2 b3 b4 b5 b6 b7 b8 b9 b10 : Byte),
    s.atHead t rest → t.function = 0x11 → t.payload = [b0, b1, b2, b3, b4, b5, b6, b7, b8, b9, b10] →
    let hold := 256 * b8.toNat + b9.toNat
    let bad := 7 < b0.toNat ∨ 7 < b1.toNat ∨ b2.toNat < 11 ∨ b3 = 0 ∨ b5 = 0 ∨ 64 < b5.toNat ∨ 3 < b6.toNat
      ∨ 1 < b7.toNat ∨ hold = 0 ∨ 1000 < hold ∨ b10.extractLsb' 3 4 ≠ 0 ∨ 4 < b10.toNat % 8
    (bad → exec .configWrite s = .next ((s.takeCommand rest).answer (bareResponse 0x11 2)))
    ∧ (¬bad → ∃ c : ConfigRecord,
      c.trunkRate.code = b0 ∧ c.fieldRate.code = b1 ∧ c.gap = b2.toNat ∧ c.replyWindow = b3.toNat
      ∧ c.settleTime = b4.toNat ∧ c.tenureLimit = b5.toNat ∧ c.downstreamDrops = b6.getLsbD 0
      ∧ c.upstreamDrops = b6.getLsbD 1 ∧ (c.policy = .hold ↔ b7 = 1) ∧ c.holdLimit = hold
      ∧ c.attentionEnable = b10.getLsbD 7
      ∧ c.binding.map (·.val + 1) = (if b10.toNat % 8 = 0 then none else some (b10.toNat % 8))
      ∧ (let trunk : LineSettings := ⟨c.trunkRate, b2.toNat⟩
        let field : LineSettings := ⟨c.fieldRate, b2.toNat⟩
        let change : Option TrunkChange := if trunk = s.tp.line then none else some ⟨trunk, false⟩
        let leaves := s.tp.change ≠ none ∧ trunk = ⟨s.config.trunkRate, s.config.gap⟩
          ∧ Config.repeatLeavesTrunkChange = true
        let taken : State := { s.takeCommand rest with
          config := c
          la := { s.la with counter := min s.la.counter b5.toNat }
          fp := if field = s.fp.line then { s.fp with change := none }
            else if s.flc.state = .idle ∧ s.fp.framer = .hunt then { s.fp with line := field, change := none }
            else { s.fp with change := some field } }
        (¬leaves → exec .configWrite s = .next (State.answer
          { taken with tp := { taken.tp with
            change := change
            tsq := s.tp.tsq.map fun e => { e with awaited := false }
            sending := s.tp.sending.map fun x => { x with awaited := false } } }
          ⟨0x11, [0], change.isSome⟩))
        ∧ (leaves → exec .configWrite s = .next (taken.answer (okResponse 0x11 [])))
        ∧ (c = s.config →
          leaves ∨ (s.tp.line = trunk ∧ s.tp.change = none ∧ (∀ e ∈ s.tp.tsq, e.awaited = false)
            ∧ ∀ x, s.tp.sending = some x → x.awaited = false) →
          (s.fp.line = field ∧ s.fp.change = none) ∨ (s.fp.line ≠ field ∧ s.fp.change = some field
            ∧ (s.flc.state ≠ .idle ∨ s.fp.framer ≠ .hunt)) →
          s.la.counter ≤ c.tenureLimit →
          exec .configWrite s = .next ((s.takeCommand rest).answer (okResponse 0x11 [])))))

/-! ## Accumulator commands -/

/-- ACC_READ: range faults give BAD_ARG and change nothing; else the images of the accumulators named, in order, and with
the clear flag sum, samples, tally and sticky flag become 0 and the mode stays (R67). -/
def Obligations.AccReadReturnsImages : Prop :=
  ∀ (s : State) (t : Telegram) (rest : List Telegram) (first count flags : Byte),
    s.TablesCanonical → s.atHead t rest → t.function = 0x30 → t.payload = [first, count, flags] →
    let bad := 31 < first.toNat ∨ count = 0 ∨ 16 < count.toNat ∨ 32 < first.toNat + count.toNat ∨ 1 < flags.toNat
    (bad → exec .accRead s = .next ((s.takeCommand rest).answer (bareResponse 0x30 2)))
    ∧ (¬bad → ∃ u : State, exec .accRead s = .next (u.answer (okResponse 0x30
        ([first, count] ++ (List.range count.toNat).flatMap fun i =>
          let a := bankGet s.ab (first.toNat + i)
          signedBytesOf 6 a.sum ++ bytesOf 4 a.samples ++ signedBytesOf 2 a.tally
            ++ [(if a.sticky then 1 else 0) + (if a.mode = .wrap then 2 else 0)])))
      ∧ u = { s.takeCommand rest with ab := u.ab }
      ∧ (flags = 0 → u.ab = s.ab)
      ∧ (flags = 1 → ∀ n, bankGet u.ab n =
          if first.toNat ≤ n ∧ n < first.toNat + count.toNat then ⟨0, 0, 0, false, (bankGet s.ab n).mode⟩
          else bankGet s.ab n))

/-- ACC_CLEAR zeroes the accumulators named but for their modes (R68), and ACC_SETUP sets their modes and nothing else
(R69); a range fault or an unknown mode code gives BAD_ARG and changes nothing. -/
def Obligations.AccClearAndSetup : Prop :=
  (∀ (s : State) (t : Telegram) (rest : List Telegram) (first count : Byte),
    s.TablesCanonical → s.atHead t rest → t.function = 0x32 → t.payload = [first, count] →
    let bad := 31 < first.toNat ∨ count = 0 ∨ 32 < count.toNat ∨ 32 < first.toNat + count.toNat
    (bad → exec .accClear s = .next ((s.takeCommand rest).answer (bareResponse 0x32 2)))
    ∧ (¬bad → ∃ u : State, exec .accClear s = .next (u.answer (okResponse 0x32 []))
      ∧ u = { s.takeCommand rest with ab := u.ab }
      ∧ ∀ n, bankGet u.ab n =
          if first.toNat ≤ n ∧ n < first.toNat + count.toNat then ⟨0, 0, 0, false, (bankGet s.ab n).mode⟩
          else bankGet s.ab n))
  ∧ ∀ (s : State) (t : Telegram) (rest : List Telegram) (first count mode : Byte),
    s.TablesCanonical → s.atHead t rest → t.function = 0x31 → t.payload = [first, count, mode] →
    let bad := 31 < first.toNat ∨ count = 0 ∨ 32 < count.toNat ∨ 32 < first.toNat + count.toNat ∨ 1 < mode.toNat
    (bad → exec .accSetup s = .next ((s.takeCommand rest).answer (bareResponse 0x31 2)))
    ∧ (¬bad → ∃ u : State, exec .accSetup s = .next (u.answer (okResponse 0x31 []))
      ∧ u = { s.takeCommand rest with ab := u.ab }
      ∧ ∀ n, bankGet u.ab n =
          if first.toNat ≤ n ∧ n < first.toNat + count.toNat then
            { bankGet s.ab n with mode := if mode = 0 then .saturate else .wrap }
          else bankGet s.ab n)

/-! ## The Table Store -/

/-- PUBLISH in EDITABLE flips the live selector, adds 1 to the publication number and enters DRAINING or COPYING by the
holders of the set that ceases to be live; in DRAINING and COPYING it is refused with BUSY (R91, R92). -/
def Obligations.PublishFlipsTheLiveSet : Prop :=
  ∀ (s : State) (t : Telegram) (rest : List Telegram), s.atHead t rest → t.function = 0x22 → t.payload = [] →
    (s.ts.state ≠ .editable → exec .publish s = .next ((s.takeCommand rest).answer (bareResponse 0x22 1)))
    ∧ (s.ts.state = .editable →
      exec .publish s = .next (State.answer
        { s.takeCommand rest with
          ts := { s.ts with
            live := s.ts.live.other, publication := s.ts.publication + 1
            state := if s.isHeld s.ts.live then .draining else .copying } }
        (okResponse 0x22 (twoBytes (s.ts.publication + 1).toNat ++ [s.ts.live.other.code]))))

/-- COPY_END: the edit set becomes equal to the live set in every table and the Table Store EDITABLE; nothing else changes
(R94). In another state no copy runs and the command does nothing (log 3). -/
def Obligations.CopyEndEqualizesTheSets : Prop :=
  ∀ s : State,
    (s.ts.state = .copying → ∃ t : State, exec .copyEnd s = .next t
      ∧ t = { s with ts := t.ts } ∧ t.ts.set0 = t.ts.set1 ∧ t.ts.table t.ts.live = s.ts.table s.ts.live
      ∧ t.ts.live = s.ts.live ∧ t.ts.publication = s.ts.publication ∧ t.ts.state = .editable)
    ∧ (s.ts.state ≠ .copying → exec .copyEnd s = .next s)

/-- TABLE_READ of each kind: its response by the set's number, the Table Store's state and the limits of the kind's selector;
nothing changes (R100). -/
def Obligations.TableReadsReturnImages : Prop :=
  ∀ (s : State) (t : Telegram) (rest : List Telegram) (set : Byte), s.atHead t rest → t.function = 0x20 →
    (∀ d w, t.payload = [set, 1, d, w] →
      exec .tableReadWindow s = .next ((s.takeCommand rest).answer (s.tableReadResponse set
        (if d.toNat ≤ 1 ∧ w.toNat ≤ 3 then
          some fun T =>
            let x := (T.windows (if d = 0 then .downstream else .upstream)).get (Fin.ofNat 4 w.toNat)
            [if x.enabled then 0x80 else 0] ++ twoBytes x.low ++ twoBytes x.high ++ twoBytes x.base
        else none))))
    ∧ (∀ hi lo c, t.payload = [set, 2, hi, lo, c] →
      let start := 256 * hi.toNat + lo.toNat
      exec .tableReadEntries s = .next ((s.takeCommand rest).answer (s.tableReadResponse set
        (if start ≤ 2047 ∧ 1 ≤ c.toNat ∧ c.toNat ≤ 100 ∧ start + c.toNat ≤ 2048 then
          some fun T => (List.range c.toNat).flatMap fun i => twoBytes (T.entry (start + i)).code
        else none))))
    ∧ (∀ n, t.payload = [set, 3, n] →
      exec .tableReadActionRecord s = .next ((s.takeCommand rest).answer (s.tableReadResponse set
        (some fun T => recordImage (T.record n.toNat)))))
    ∧ (∀ n start c, t.payload = [set, 4, n, start, c] →
      exec .tableReadTranslateBytes s = .next ((s.takeCommand rest).answer (s.tableReadResponse set
        (if n.toNat ≤ 3 ∧ 1 ≤ c.toNat ∧ c.toNat ≤ 128 ∧ start.toNat + c.toNat ≤ 256 then
          some fun T => (List.range c.toNat).map fun i => T.translated n.toNat (BitVec.ofNat 8 (start.toNat + i))
        else none))))
    ∧ (∀ n, t.payload = [set, 5, n] →
      exec .tableReadDelimiterSet s = .next ((s.takeCommand rest).answer (s.tableReadResponse set
        (if n.toNat ≤ 7 then
          some fun T => delimitersImage fun v => T.isDelimiter n.toNat (BitVec.ofNat 8 v)
        else none))))
    ∧ (∀ hi lo c, t.payload = [set, 6, hi, lo, c] →
      let start := 256 * hi.toNat + lo.toNat
      exec .tableReadPatternBytes s = .next ((s.takeCommand rest).answer (s.tableReadResponse set
        (if start ≤ 2047 ∧ 1 ≤ c.toNat ∧ c.toNat ≤ 128 ∧ start + c.toNat ≤ 2048 then
          some fun T => T.patternRun ⟨start, c.toNat⟩
        else none))))
    ∧ (∀ n, t.payload = [set, 7, n] →
      exec .tableReadSweepItem s = .next ((s.takeCommand rest).answer (s.tableReadResponse set
        (some fun T => itemImage (T.item n.toNat)))))

/-- TABLE_WRITE of a window: BUSY outside EDITABLE; BAD_ARG for each fault of R96 or a reserved bit; else that window of
that direction in the edit set, and nothing else, takes the new value (R95, R96). -/
def Obligations.WindowWriteIsChecked : Prop :=
  ∀ (s : State) (t : Telegram) (rest : List Telegram) (d w f l1 l0 h1 h0 b1 b0 : Byte),
    s.atHead t rest → t.function = 0x21 → t.payload = [1, d, w, f, l1, l0, h1, h0, b1, b0] →
    let low := 256 * l1.toNat + l0.toNat
    let high := 256 * h1.toNat + h0.toNat
    let base := 256 * b1.toNat + b0.toNat
    let bad := 1 < d.toNat ∨ 3 < w.toNat ∨ f.toNat % 128 ≠ 0 ∨ 16383 < low ∨ 16383 < high ∨ high < low ∨ 2047 < base
      ∨ 2047 < base + (high - low)
    let x : Window := ⟨f.getLsbD 7, low, high, base⟩
    (s.ts.state ≠ .editable → exec .tableWriteWindow s = .next ((s.takeCommand rest).answer (bareResponse 0x21 1)))
    ∧ (s.ts.state = .editable → bad →
      exec .tableWriteWindow s = .next ((s.takeCommand rest).answer (bareResponse 0x21 2)))
    ∧ (s.ts.state = .editable → ¬bad →
      let T := s.ts.table s.ts.edit
      exec .tableWriteWindow s = .next (((s.takeCommand rest).withEdit
        (if d = 0 then { T with downstream := T.downstream.set (Fin.ofNat 4 w.toNat) x }
          else { T with upstream := T.upstream.set (Fin.ofNat 4 w.toNat) x })).answer (okResponse 0x21 [])))

/-- TABLE_WRITE of a run of entries: BUSY outside EDITABLE; BAD_ARG for each fault of R97; else the run, and no other
entry, takes the values its codes name (R95, R97). -/
def Obligations.EntriesWriteIsChecked : Prop :=
  ∀ (s : State) (t : Telegram) (rest : List Telegram) (hi lo c : Byte) (data : List Byte),
    s.TablesCanonical → s.atHead t rest → t.function = 0x21 → t.payload = 2 :: hi :: lo :: c :: data → data.length = 2 * c.toNat →
    let start := 256 * hi.toNat + lo.toNat
    let code := fun i => 256 * (data.getD (2 * i) 0).toNat + (data.getD (2 * i + 1) 0).toNat
    let bad := 2047 < start ∨ c = 0 ∨ 100 < c.toNat ∨ 2048 < start + c.toNat
      ∨ ∃ i, i < c.toNat ∧ 255 < code i ∧ code i ≠ 0xFFFE ∧ code i ≠ 0xFFFF
    (s.ts.state ≠ .editable → exec .tableWriteEntries s = .next ((s.takeCommand rest).answer (bareResponse 0x21 1)))
    ∧ (s.ts.state = .editable → bad →
      exec .tableWriteEntries s = .next ((s.takeCommand rest).answer (bareResponse 0x21 2)))
    ∧ (s.ts.state = .editable → ¬bad →
      ∃ T : TableSet, exec .tableWriteEntries s = .next (((s.takeCommand rest).withEdit T).answer (okResponse 0x21 []))
        ∧ T = { s.ts.table s.ts.edit with entries := T.entries }
        ∧ (∀ i, i < c.toNat → T.entry (start + i) =
            if code i = 0xFFFF then .pass else if code i = 0xFFFE then .drop else .action (BitVec.ofNat 8 (code i)))
        ∧ ∀ n, n < start ∨ start + c.toNat ≤ n → T.entry n = (s.ts.table s.ts.edit).entry n)

/-- TABLE_WRITE of translate bytes, of pattern bytes and of a delimiter set: BUSY outside EDITABLE; BAD_ARG for each fault of
R98; else the bytes given, in order, or the whole membership of that set, and nothing else (R95, R98). -/
def Obligations.ByteTableWritesAreChecked : Prop :=
  (∀ (s : State) (t : Telegram) (rest : List Telegram) (n start c : Byte) (data : List Byte),
    s.TablesCanonical → s.atHead t rest → t.function = 0x21 → t.payload = 4 :: n :: start :: c :: data → data.length = c.toNat →
    let bad := 3 < n.toNat ∨ c = 0 ∨ 128 < c.toNat ∨ 256 < start.toNat + c.toNat
    let T := s.ts.table s.ts.edit
    (s.ts.state ≠ .editable →
      exec .tableWriteTranslateBytes s = .next ((s.takeCommand rest).answer (bareResponse 0x21 1)))
    ∧ (s.ts.state = .editable → bad →
      exec .tableWriteTranslateBytes s = .next ((s.takeCommand rest).answer (bareResponse 0x21 2)))
    ∧ (s.ts.state = .editable → ¬bad →
      ∃ T' : TableSet, exec .tableWriteTranslateBytes s = .next (((s.takeCommand rest).withEdit T').answer (okResponse 0x21 []))
        ∧ T' = { T with translate := T'.translate }
        ∧ ∀ m v, T'.translated m v =
            if m = n.toNat ∧ start.toNat ≤ v.toNat ∧ v.toNat < start.toNat + c.toNat then
              data.getD (v.toNat - start.toNat) 0
            else T.translated m v))
  ∧ (∀ (s : State) (t : Telegram) (rest : List Telegram) (hi lo c : Byte) (data : List Byte),
    s.TablesCanonical → s.atHead t rest → t.function = 0x21 → t.payload = 6 :: hi :: lo :: c :: data → data.length = c.toNat →
    let start := 256 * hi.toNat + lo.toNat
    let bad := 2047 < start ∨ c = 0 ∨ 128 < c.toNat ∨ 2048 < start + c.toNat
    let T := s.ts.table s.ts.edit
    (s.ts.state ≠ .editable →
      exec .tableWritePatternBytes s = .next ((s.takeCommand rest).answer (bareResponse 0x21 1)))
    ∧ (s.ts.state = .editable → bad →
      exec .tableWritePatternBytes s = .next ((s.takeCommand rest).answer (bareResponse 0x21 2)))
    ∧ (s.ts.state = .editable → ¬bad →
      ∃ T' : TableSet, exec .tableWritePatternBytes s = .next (((s.takeCommand rest).withEdit T').answer (okResponse 0x21 []))
        ∧ T' = { T with pattern := T'.pattern }
        ∧ ∀ k, T'.patternRun ⟨k, 1⟩ =
            if start ≤ k ∧ k < start + c.toNat then [data.getD (k - start) 0] else T.patternRun ⟨k, 1⟩))
  ∧ ∀ (s : State) (t : Telegram) (rest : List Telegram) (n : Byte) (data : List Byte),
    s.TablesCanonical → s.atHead t rest → t.function = 0x21 → t.payload = 5 :: n :: data → data.length = 32 →
    let T := s.ts.table s.ts.edit
    (s.ts.state ≠ .editable →
      exec .tableWriteDelimiterSet s = .next ((s.takeCommand rest).answer (bareResponse 0x21 1)))
    ∧ (s.ts.state = .editable → 7 < n.toNat →
      exec .tableWriteDelimiterSet s = .next ((s.takeCommand rest).answer (bareResponse 0x21 2)))
    ∧ (s.ts.state = .editable → n.toNat ≤ 7 →
      ∃ T' : TableSet, exec .tableWriteDelimiterSet s = .next (((s.takeCommand rest).withEdit T').answer (okResponse 0x21 []))
        ∧ T' = { T with delimiters := T'.delimiters }
        ∧ ∀ m v, T'.isDelimiter m v =
            if m = n.toNat then (data.getD (v.toNat / 8) 0).getLsbD (v.toNat % 8) else T.isDelimiter m v)

/-- TABLE_WRITE of a sweep item: BUSY outside EDITABLE; BAD_ARG for each fault of R99 in a defined item; else that item,
defined or undefined, and nothing else (R95, R99). -/
def Obligations.SweepItemWriteIsChecked : Prop :=
  ∀ (s : State) (t : Telegram) (rest : List Telegram) (n a f p1 p0 len : Byte),
    s.TablesCanonical → s.atHead t rest → t.function = 0x21 → t.payload = [7, n, a, f, p1, p0, len] →
    let offset := 256 * p1.toNat + p0.toNat
    let bad := a.getLsbD 7 = true ∧ (a.getLsbD 6 = true ∨ a.toNat % 64 = 63 ∨ 2047 < offset ∨ 240 < len.toNat
      ∨ 2048 < offset + len.toNat)
    let T := s.ts.table s.ts.edit
    (s.ts.state ≠ .editable →
      exec .tableWriteSweepItem s = .next ((s.takeCommand rest).answer (bareResponse 0x21 1)))
    ∧ (s.ts.state = .editable → bad →
      exec .tableWriteSweepItem s = .next ((s.takeCommand rest).answer (bareResponse 0x21 2)))
    ∧ (s.ts.state = .editable → ¬bad →
      ∃ T' : TableSet, exec .tableWriteSweepItem s = .next (((s.takeCommand rest).withEdit T').answer (okResponse 0x21 []))
        ∧ T' = { T with items := T'.items }
        ∧ ∀ m, T'.item m =
            if m = n.toNat then
              (if a.getLsbD 7 then some ⟨BitVec.ofNat 6 a.toNat, f, ⟨offset, len.toNat⟩⟩ else none)
            else T.item m)

/-- TABLE_WRITE of an action record: BUSY outside EDITABLE; BAD_ARG where the image is refused, with the record kept; else
that record of the edit set is replaced whole or made undefined, and nothing else changes (R53, R95). -/
def Obligations.ActionRecordWriteReplacesWhole : Prop :=
  ∀ (s : State) (t : Telegram) (rest : List Telegram) (n : Byte) (image : List Byte),
    s.TablesCanonical → s.atHead t rest → t.function = 0x21 → t.payload = 3 :: n :: image → image.length = 35 →
    let T := s.ts.table s.ts.edit
    (s.ts.state ≠ .editable →
      exec .tableWriteActionRecord s = .next ((s.takeCommand rest).answer (bareResponse 0x21 1)))
    ∧ (s.ts.state = .editable → recordOfImage image = none →
      exec .tableWriteActionRecord s = .next ((s.takeCommand rest).answer (bareResponse 0x21 2)))
    ∧ ∀ r, s.ts.state = .editable → recordOfImage image = some r →
      ∃ T' : TableSet, exec .tableWriteActionRecord s = .next (((s.takeCommand rest).withEdit T').answer (okResponse 0x21 []))
        ∧ T' = { T with records := T'.records }
        ∧ ∀ m, T'.record m = if m = n.toNat then r else T.record m

/-- The image of an action record (section 12.3): with its defined bit clear it marks the record undefined; else it is
refused exactly for the faults of R54, R55, R56 and the reserved bits and bytes of R179, and otherwise gives the record its
bytes spell. -/
def Obligations.ActionRecordImageIsChecked : Prop :=
  ∀ image : List Byte, image.length = 35 →
    let b := fun k => image.getD k 0
    let n1 := fun k => (b k).toNat
    let n2 := fun k => 256 * (b k).toNat + (b (k + 1)).toNat
    let s4 := fun k => (b k ++ b (k + 1) ++ b (k + 2) ++ b (k + 3)).toInt
    let weight := (b 32 ++ b 33).toInt
    let scale := (b 34).toInt
    let on := fun k => (b 0).getLsbD k = true
    let spanBad := fun k => 239 < n1 k ∨ 240 < n1 (k + 1) ∨ 240 < n1 k + n1 (k + 1)
    let bytesLeft := fun lo hi => ∃ k, lo ≤ k ∧ k ≤ hi ∧ b k ≠ 0
    let outOfRange :=
      (on 5 ∧ (spanBad 5 ∨ 2047 < n2 7 ∨ 240 < n1 9 ∨ 2048 < n2 7 + n1 9))
        ∨ (on 4 ∧ (3 < n1 10 ∨ spanBad 11))
        ∨ (on 3 ∧ (spanBad 13 ∨ 7 < n1 15 ∨ 15 < n1 16 ∨ 6 < n1 17))
        ∨ (on 2 ∧ (s4 18 < -999999999 ∨ 999999999 < s4 18))
        ∨ (on 0 ∧ (31 < n1 30 ∨ weight < -32767 ∨ scale < -15 ∨ 1 < scale))
        ∨ 7 < n1 1 ∨ 16 < n1 2 ∨ 3 < n1 3 ∨ 3 < n1 4
    let inconsistent :=
      (¬on 3 ∧ (on 2 ∨ on 1 ∨ on 0 ∨ 0 < n1 1)) ∨ (on 0 ∧ n1 31 = 1 ∧ 31 < n1 30 + n1 1) ∨ (on 3 ∧ 15 < n1 16 + n1 1)
        ∨ (on 1 ∧ s4 26 < s4 22)
    let unserved :=
      (¬on 5 ∧ 6 ≤ n1 2 ∧ n1 2 ≤ 9) ∨ (¬on 1 ∧ 2 ≤ n1 2 ∧ n1 2 ≤ 5) ∨ (¬on 3 ∧ 10 ≤ n1 2 ∧ n1 2 ≤ 12)
        ∨ (¬on 0 ∧ 13 ≤ n1 2 ∧ n1 2 ≤ 14)
    let reserved :=
      (on 0 ∧ 1 < n1 31) ∨ (¬on 5 ∧ bytesLeft 5 9) ∨ (¬on 4 ∧ bytesLeft 10 12) ∨ (¬on 3 ∧ bytesLeft 13 17)
        ∨ (¬on 2 ∧ bytesLeft 18 21) ∨ (¬on 1 ∧ bytesLeft 22 29) ∨ (¬on 0 ∧ bytesLeft 30 34)
    (¬on 7 → recordOfImage image = some none)
    ∧ (on 7 → outOfRange ∨ inconsistent ∨ unserved ∨ reserved → recordOfImage image = none)
    ∧ (on 7 → ¬(outOfRange ∨ inconsistent ∨ unserved ∨ reserved) →
      ∃ r, recordOfImage image = some (some r)
        ∧ (r.urgent = true ↔ on 6) ∧ r.repeats = n1 1 ∧ r.condition.code = b 2 ∧ r.onTrue.code = b 3
        ∧ r.onFalse.code = b 4
        ∧ (on 5 → r.matching = some ⟨⟨n1 5, n1 6⟩, ⟨n2 7, n1 9⟩⟩) ∧ (¬on 5 → r.matching = none)
        ∧ (on 4 → r.translate = some ⟨n1 10, ⟨n1 11, n1 12⟩⟩) ∧ (¬on 4 → r.translate = none)
        ∧ (on 3 → r.extract = some ⟨⟨n1 13, n1 14⟩, n1 15, n1 16, n1 17⟩) ∧ (¬on 3 → r.extract = none)
        ∧ (on 2 → r.adjust = some (s4 18)) ∧ (¬on 2 → r.adjust = none)
        ∧ (on 1 → r.limit = some ⟨s4 22, s4 26⟩) ∧ (¬on 1 → r.limit = none)
        ∧ (on 0 → r.accumulate = some ⟨n1 30, n1 31 == 1, weight, scale⟩) ∧ (¬on 0 → r.accumulate = none))

/-- What the part accepts as an image it sends back byte for byte (R179): windows, entry codes, defined action records, defined
sweep items, delimiter sets and the configuration record. A record or item that an accepted image marks undefined reads back
as zeros, which are accepted again. -/
def Obligations.ImagesReadBackAsWritten : Prop :=
  (∀ image w, image.length = 7 → Window.ofImage image = some w → w.image = image)
  ∧ (∀ code e, code < 65536 → Entry.ofCode code = some e → e.code = code)
  ∧ (∀ image r, image.length = 35 → recordOfImage image = some (some r) → recordImage (some r) = image)
  ∧ recordImage none = List.replicate 35 0 ∧ recordOfImage (List.replicate 35 0) = some none
  ∧ (∀ image i, image.length = 5 → itemOfImage image = some (some i) → itemImage (some i) = image)
  ∧ itemImage none = List.replicate 5 0 ∧ itemOfImage (List.replicate 5 0) = some none
  ∧ (∀ image, image.length = 32 → delimitersImage (fun v => (delimitersOfImage image).getD v false) = image)
  ∧ (∀ member : Nat → Bool, delimitersOfImage (delimitersImage member) = (List.range 256).map member)
  ∧ (∀ image c, image.length = 11 → ConfigRecord.ofImage image = some c → c.image = image)
  ∧ ∀ c : ConfigRecord, c.InRange → ConfigRecord.ofImage c.image = some c

/-! ## Telegrams on a line -/

/-- The telegram that a transmitter sends is the telegram that a framer takes: every address, function and payload of at most
240 bytes comes back whole, ends good and leaves the framer in HUNT; with any other check bytes it ends corrupt (R2 to R4). -/
def Obligations.FramerTakesWhatATransmitterSends : Prop :=
  ∀ (address function : Byte) (payload : List Byte), payload.length ≤ 240 →
    Framer.hunt.takeAll (lineChars address function payload) = (.hunt, [.good ⟨address, function, payload⟩])
    ∧ ∀ upper lower : Byte, check (coveredBytes address function payload) ≠ upper ++ lower →
      Framer.hunt.takeAll
        ((openingByte :: coveredBytes address function payload ++ [upper, lower]).map Rx.byte) = (.hunt, [.corrupt])

/-- The check of the ASCII text 123456789 is 0x29B1, and running the register over covered bytes and then over their own two
check bytes leaves it at 0 (R3). -/
def Obligations.CheckIsTheStatedCode : Prop :=
  check [0x31, 0x32, 0x33, 0x34, 0x35, 0x36, 0x37, 0x38, 0x39] = 0x29B1
  ∧ ∀ covered : List Byte, check (covered ++ [upperByte (check covered), lowerByte (check covered)]) = 0

/-- A broken character and a length byte over 240 make a telegram malformed and return the framer to HUNT, which discards
every character but the opening byte (R4). NEW_TELEGRAM_BEGUN and OPENING_BYTE_ARRIVES: a framer in HUNT that receives the
opening byte enters ADDRESS, and in AWAITING the Field Line Controller enters RECEIVING, its window as it runs; after the
window's expiry the framer takes the byte all the same, and while the part drives the line it takes none (R6, R7, R108).
Which of the two rows does this outside AWAITING and in it is the model's reading of the table (log 22). -/
def Obligations.FramersBeginAndAbandonTelegrams : Prop :=
  (∀ f : Framer, f ≠ .hunt → f.take .broken = (.hunt, some .malformed))
  ∧ (∀ a f b, 240 < b.toNat → (Framer.length a f).take (.byte b) = (.hunt, some .malformed))
  ∧ Framer.hunt.take .broken = (.hunt, none)
  ∧ (∀ b, b ≠ 0x96 → Framer.hunt.take (.byte b) = (.hunt, none))
  ∧ Framer.hunt.take (.byte 0x96) = (.address, none)
  ∧ ∀ s : State,
    (s.tp.framer = .hunt →
      exec (.newTelegramBegun .trunk) s = .next { s with tp := { s.tp with framer := .address } })
    ∧ (s.fp.framer = .hunt → s.flc.state ≠ .awaiting → s.fp.driverEnable = false →
      exec (.newTelegramBegun .field) s = .next { s with fp := { s.fp with framer := .address } })
    ∧ (s.fp.framer = .hunt → s.flc.state = .awaiting →
      exec .openingByteArrives s = .next
        { s with fp := { s.fp with framer := .address }, flc := { s.flc with state := .receiving } })
    ∧ (s.fp.framer = .hunt → s.flc.state ≠ .awaiting → s.fp.driverEnable = false →
      exec .openingByteArrives s = .next { s with fp := { s.fp with framer := .address } })
    ∧ (s.flc.state ≠ .awaiting → s.fp.driverEnable = true →
      exec .openingByteArrives s = .next s ∧ exec (.newTelegramBegun .field) s = .next s)

/-! ## The Trunk Port -/

/-- TRUNK_TELEGRAM_END sorts the telegram the characters end into MCQ, TRQ or a count (R9); a queue that a telegram enters is compared
for the hold output (R11), and a discarded telegram changes nothing but its count. -/
def Obligations.TrunkTelegramsAreSorted : Prop :=
  ∀ (s : State) (chars : List Rx) (f : Framer) (e : Ended), s.tp.framer.takeAll chars = (f, [e]) →
    let s1 : State := { s with tp := { s.tp with framer := f } }
    let holds := fun trq mcq : Nat =>
      if 7 ≤ trq ∨ 3 ≤ mcq then true else if trq ≤ 5 ∧ mcq ≤ 2 then false else s.tp.hold
    (e = .malformed → exec (.trunkTelegramEnd chars) s = .next (s1.count .trunkMalformed).serviceTrunk)
    ∧ (e = .corrupt → exec (.trunkTelegramEnd chars) s = .next (s1.count .trunkCorrupt).serviceTrunk)
    ∧ ∀ t, e = .good t →
      let flagged := t.address.getLsbD 7 = true ∨ t.address.getLsbD 6 = true
      let mine := t.address.toNat % 64 = s.tp.ownAddress.toNat ∧ s.tp.ownAddress ≠ 63
      (flagged → exec (.trunkTelegramEnd chars) s = .next (s1.count .trunkMalformed).serviceTrunk)
      ∧ (¬flagged → mine → s.tp.mcq.length < 4 →
        exec (.trunkTelegramEnd chars) s = .next (State.serviceTrunk
          { s1 with tp := { s1.tp with
            mcq := s.tp.mcq ++ [t], hold := holds s.tp.trq.length (s.tp.mcq.length + 1) } }))
      ∧ (¬flagged → mine → 4 ≤ s.tp.mcq.length →
        exec (.trunkTelegramEnd chars) s = .next (s1.count .commandOverrun).serviceTrunk)
      ∧ (¬flagged → ¬mine → s.tp.trq.length < 8 →
        exec (.trunkTelegramEnd chars) s = .next (State.serviceTrunk
          { s1 with tp := { s1.tp with
            trq := s.tp.trq ++ [t], hold := holds (s.tp.trq.length + 1) s.tp.mcq.length } }))
      ∧ (¬flagged → ¬mine → 8 ≤ s.tp.trq.length →
        exec (.trunkTelegramEnd chars) s = .next (s1.count .trunkOverrun).serviceTrunk)

/-- GAP_LIMIT_EXPIRY abandons the telegram in progress as malformed: on the trunk it is counted; on the field line it is
CORRUPT in a reply phase and else discarded with no count. In HUNT no silence is timed and the command does nothing (log 3;
R5, R7, R9, R109). -/
def Obligations.GapLimitAbandonsATelegram : Prop :=
  ∀ s : State,
    (s.tp.framer ≠ .hunt → exec (.gapLimitExpiry .trunk) s = .next (State.serviceTrunk
      (State.count { s with tp := { s.tp with framer := .hunt } } .trunkMalformed)))
    ∧ (s.fp.framer ≠ .hunt → s.flc.state = .receiving → exec (.gapLimitExpiry .field) s = .next (State.takeFieldChange
      ((State.count { s with fp := { s.fp with framer := .hunt } } .fieldCorrupt).closeTransaction .corrupt)))
    ∧ (s.fp.framer ≠ .hunt → s.flc.state ≠ .receiving → exec (.gapLimitExpiry .field) s = .next (State.takeFieldChange
      { s with fp := { s.fp with framer := .hunt } }))
    ∧ (s.tp.framer = .hunt → exec (.gapLimitExpiry .trunk) s = .next s)
    ∧ (s.fp.framer = .hunt → exec (.gapLimitExpiry .field) s = .next s)

/-- Pause and the transmitter: the assertion moves the level alone; while nothing is due and nobody waits, the release, or
the end of the telegram being sent, starts the head of TSQ whole; a head that finds pause is counted once and stays
(R2, R12, R13). -/
def Obligations.PauseAndTheTransmitter : Prop :=
  (∀ s, exec .trunkPauseAssert s = .next { s with tp := { s.tp with pause := true } })
  ∧ ∀ s : State, s.firstWaiting = none →
    let start := fun e : TsqEntry =>
      some (⟨lineBytes (addressByte true false s.tp.ownAddress) e.function e.payload, e.awaited⟩ : TrunkSend)
    (∀ e rest, s.tp.sending = none → s.tp.change = none → s.tp.tsq = e :: rest →
      exec .trunkPauseRelease s = .next
        { s with tp := { s.tp with pause := false, sending := start e, tsq := rest, headCounted := false } })
    ∧ (s.tp.sending ≠ none ∨ (s.tp.tsq = [] ∧ s.tp.change = none) →
      exec .trunkPauseRelease s = .next { s with tp := { s.tp with pause := false } })
    ∧ ∀ x, s.tp.sending = some x → s.tp.change = none →
      (s.tp.tsq = [] → exec .trunkTelegramSent s = .next { s with tp := { s.tp with sending := none } })
      ∧ (∀ e rest, s.tp.tsq = e :: rest → s.tp.pause = false →
        exec .trunkTelegramSent s = .next
          { s with tp := { s.tp with sending := start e, tsq := rest, headCounted := false } })
      ∧ (s.tp.tsq ≠ [] → s.tp.pause = true → s.tp.headCounted = true →
        exec .trunkTelegramSent s = .next { s with tp := { s.tp with sending := none } })
      ∧ (s.tp.tsq ≠ [] → s.tp.pause = true → s.tp.headCounted = false →
        exec .trunkTelegramSent s = .next
          { s with
            tp := { s.tp with sending := none, headCounted := true }
            counters := { s.counters with trunkPauseWaits := min (s.counters.trunkPauseWaits + 1) 65535 } })

/-- A waiting trunk line change: the end of its awaited response lets it take effect with the framer in HUNT, and the
head of TSQ then starts; with the framer part-way through a telegram it goes on waiting and holds back TSQ (R13, R16). -/
def Obligations.TrunkLineChangeFollowsItsResponse : Prop :=
  ∀ (s : State) (x : TrunkSend) (c : TrunkChange), s.tp.sending = some x → x.awaited = true → s.tp.change = some c →
    s.firstWaiting = none →
    (s.tp.framer = .hunt → s.tp.tsq = [] →
      exec .trunkTelegramSent s = .next
        { s with tp := { s.tp with sending := none, change := none, line := c.settings } })
    ∧ (∀ e rest, s.tp.framer = .hunt → s.tp.tsq = e :: rest → s.tp.pause = false →
      exec .trunkTelegramSent s = .next
        { s with
          tp := { s.tp with
            sending := some ⟨lineBytes (addressByte true false s.tp.ownAddress) e.function e.payload, e.awaited⟩
            tsq := rest, headCounted := false, change := none, line := c.settings } })
    ∧ (s.tp.framer ≠ .hunt →
      exec .trunkTelegramSent s = .next
        { s with tp := { s.tp with sending := none, change := some ⟨c.settings, true⟩ } })

/-- The slot of TSQ that a start frees, at the end of a telegram or at the release of pause, goes to the first waiting
producer in the arbiter's order (R12, R15): the Management Unit, the two classifiers, the Line Arbiter's, the Attention
Monitor's and the sweeps' slots; the others go on waiting. A notice is composed at admission from what its slot holds then
(R132, R145, R160, section 12.5). A release of pause while a telegram is being sent frees no slot. -/
def Obligations.FreedSlotGoesToTheFirstWaiting : Prop :=
  (∀ s : State,
    (∀ n, s.la.notice = some n → s.waitsWith .la =
      some ⟨0xE5, [BitVec.ofNat 8 n.expiries] ++ twoBytes n.grants, false⟩)
    ∧ (s.am.pending = true → s.waitsWith .am =
      some ⟨0xE3, [BitVec.ofNat 8 s.am.count, if s.am.level = .asserted then 1 else 0], false⟩)
    ∧ (∀ k n, (s.ss.get k).notice = some n → s.waitsWith (.ss k) =
      some ⟨0xE4, [BitVec.ofNat 8 k.val, n.reason.code] ++ twoBytes n.cursor ++ twoBytes n.remaining
        ++ [BitVec.ofNat 8 n.stopStation.toNat] ++ twoBytes n.passes.toNat ++ [if n.superseded then 1 else 0], false⟩))
  ∧ (∀ (s : State) (p : Producer) (e : TsqEntry),
    let order : List Producer := [.mu, .uc, .dc, .la, .am, .ss 0, .ss 1, .ss 2, .ss 3]
    s.firstWaiting = some (p, e) ↔
      s.waitsWith p = some e
        ∧ ∃ i : Nat, order[i]? = some p ∧ ∀ j : Nat, j < i → ∀ q, order[j]? = some q → s.waitsWith q = none)
  ∧ (∀ (s : State) (c : Instr) (h e : TsqEntry) (rest : List TsqEntry) (p : Producer),
    (c = .trunkTelegramSent ∧ s.tp.sending ≠ none ∧ s.tp.pause = false) ∨ (c = .trunkPauseRelease ∧ s.tp.sending = none) →
    s.tp.change = none → s.tp.tsq = h :: rest → rest.length = 15 → s.firstWaiting = some (p, e) →
    let started : State := { s with tp := { s.tp with
      sending := some ⟨lineBytes (addressByte true false s.tp.ownAddress) h.function h.payload, h.awaited⟩
      tsq := rest ++ [e], headCounted := false, pause := false } }
    (p = .mu → exec c s = .next { started with mu := .idle })
    ∧ (p = .la → exec c s = .next { started with la := { s.la with notice := none } })
    ∧ (p = .am → exec c s = .next { started with am := { s.am with pending := false, count := 0 } })
    ∧ (∀ k, p = .ss k → exec c s = .next { started with ss := s.ss.set k { s.ss.get k with notice := none } })
    ∧ (∀ u, p = .uc → s.uc = .stalled u → u.outputs = [.trunkQueue e] →
      exec c s = .next (State.checkDrain { started with uc := .idle }))
    ∧ (∀ u, p = .dc → s.dc = .stalled u → u.outputs = [.trunkQueue e] →
      exec c s = .next (State.checkDrain { started with dc := .idle })))
  ∧ ∀ s : State, 16 ≤ s.tp.tsq.length → s.tp.sending ≠ none →
    exec .trunkPauseRelease s = .next { s with tp := { s.tp with pause := false } }

/-! ## Dispatch and the stages -/

/-- The first enabled window of the direction that covers the key decides, else the unmatched disposition; the entry gives
result, verdict and disposition, a void action counts and is a DROP, and a defined record runs its stages: match on the
payload as received, translate, the numeric group on the translated payload, then the condition (R26 to R30, R35, R72). -/
def Obligations.DispatchGoesByTheFirstWindow : Prop :=
  (∀ (T : TableSet) (r : ActionRecord) (attention : Bool) (payload : List Byte) (bank : Sparse Accumulator),
    let run := runStages T r attention payload bank
    let start : StageResults := ⟨none, false, false, false, none, false⟩
    let numeric := runNumeric T r (runTranslate T r payload) (runMatch T r payload start) bank
    run.payload = runTranslate T r payload ∧ run.results = numeric.1
      ∧ (run.verdict, run.bank) = runVerdict r attention numeric.1 numeric.2)
  ∧ ∀ (s : State) (d : Direction) (set : SetId) (t : Telegram) (e : Entry),
    let T := s.ts.table set
    let W := fun k : Fin 4 => (T.windows d).get k
    let key := (t.address.toNat % 64) * 256 + t.function.toNat
    let covers := fun k => (W k).enabled = true ∧ (W k).low ≤ key ∧ key ≤ (W k).high
    let drops := match d with
      | .downstream => s.config.downstreamDrops
      | .upstream => s.config.upstreamDrops
    ((∃ k, covers k ∧ (∀ j, j < k → ¬covers j) ∧ e = T.entry ((W k).base + key - (W k).low))
      ∨ ((∀ k, ¬covers k) ∧ e = if drops then .drop else .pass)) →
    (e = .pass → s.judge d set t = (⟨.pass, true, .forward, false, t.payload⟩, s))
    ∧ (e = .drop → s.judge d set t = (⟨.drop, false, .drop, false, t.payload⟩, s))
    ∧ (∀ n, e = .action n → T.record n.toNat = none →
      s.judge d set t = (⟨.drop, false, .drop, false, t.payload⟩, s.count .voidAction))
    ∧ ∀ n r, e = .action n → T.record n.toNat = some r →
      let run := runStages T r (t.address.getLsbD 6) t.payload s.ab
      s.judge d set t =
        (⟨.action n, run.verdict, if run.verdict then r.onTrue else r.onFalse, r.urgent, run.payload⟩,
          { s with ab := run.bank })

/-- The comparison goes position by position, the shorter side padded with spaces: equal throughout is EQ, and the first
difference decides LT or GT for the span (R39). The match stage compares its clipped span with its run of the pattern memory
and changes no other stage result (R38). -/
def Obligations.ComparisonPadsWithSpaces : Prop :=
  (∀ span pattern : List Byte,
    let x := fun i => (span.getD i 0x20).toNat
    let y := fun i => (pattern.getD i 0x20).toNat
    (compareBytes span pattern = .eq ↔ ∀ i, x i = y i)
    ∧ (compareBytes span pattern = .lt ↔ ∃ i, (∀ j, j < i → x j = y j) ∧ x i < y i)
    ∧ (compareBytes span pattern = .gt ↔ ∃ i, (∀ j, j < i → x j = y j) ∧ y i < x i))
  ∧ ∀ (T : TableSet) (r : ActionRecord) (payload : List Byte) (x : StageResults),
    (∀ m, r.matching = some m → runMatch T r payload x =
      { x with matched := some (compareBytes (m.span.clip payload) (T.patternRun m.pattern)) })
    ∧ (r.matching = none → runMatch T r payload x = x)

/-- The clipped span is the run from the offset up to the smaller of offset + length and the payload's end (R37); translate
replaces exactly its bytes, each once and by its table of the held set, and keeps the length (R40). -/
def Obligations.TranslateRewritesItsSpan : Prop :=
  (∀ (T : TableSet) (r : ActionRecord) (payload : List Byte),
    (∀ x, r.translate = some x → runTranslate T r payload = translateSpan (T.translated x.table) x.span payload)
    ∧ (r.translate = none → runTranslate T r payload = payload))
  ∧ ∀ (sp : Span) (f : Byte → Byte) (payload : List Byte),
    (∀ i, (sp.clip payload)[i]? = if i < sp.length then payload[sp.offset + i]? else none)
    ∧ (translateSpan f sp payload).length = payload.length
    ∧ ∀ i, (translateSpan f sp payload)[i]? =
        if sp.offset ≤ i ∧ i < sp.offset + sp.length then payload[i]?.map f else payload[i]?

/-- The split into fields: no delimiter gives the whole as field 0, and each delimiter ends a field and belongs to none
(R42). A missing or an empty field fails, another is read by the decimal reader (R43). The numeric group runs on the one
split of the clipped extract span, r + 1 times (R42, R49). -/
def Obligations.FieldsAreSplitAtDelimiters : Prop :=
  (∀ (T : TableSet) (r : ActionRecord) (payload : List Byte) (x : StageResults) (bank : Sparse Accumulator),
    (∀ e, r.extract = some e → runNumeric T r payload x bank =
      repetitions r e (splitFields (T.isDelimiter e.delimiters) (e.span.clip payload)) (r.repeats + 1) 0 x bank)
    ∧ (r.extract = none → runNumeric T r payload x bank = (x, bank)))
  ∧ ∀ isDelimiter : Byte → Bool,
    (∀ bytes, (∀ b ∈ bytes, isDelimiter b = false) → splitFields isDelimiter bytes = [bytes])
    ∧ (∀ before b after, (∀ x ∈ before, isDelimiter x = false) → isDelimiter b = true →
      splitFields isDelimiter (before ++ b :: after) = before :: splitFields isDelimiter after)
    ∧ (∀ bytes, (splitFields isDelimiter bytes).length = (bytes.filter isDelimiter).length + 1)
    ∧ ∀ (d n : Nat) (fields : List (List Byte)),
      (fields.length ≤ n → readField d fields n = none)
      ∧ (fields[n]? = some [] → readField d fields n = none)
      ∧ ∀ field, fields[n]? = some field → field ≠ [] → readField d fields n = readDecimal d field

/-- The decimal reader: spaces, at most one sign, a number part up to the first space; a part of 1 to 9 digits and at most
one full stop gives its value with the implied decimals, cut toward zero, unless the magnitude is over 999,999,999; any other
part fails (R44, R45). -/
def Obligations.DecimalReaderReadsOneNumber : Prop :=
  ∀ (d spaces : Nat) (sign part rest : List Byte), sign ∈ ([[], [0x2B], [0x2D]] : List (List Byte)) →
    (rest = [] ∨ rest.head? = some 0x20) → (∀ b ∈ part, b ≠ 0x20) →
    (sign = [] → part.head? ≠ some 0x2B ∧ part.head? ≠ some 0x2D) → (part ≠ [] ∨ sign ≠ [] ∨ rest = []) →
    let field := List.replicate spaces 0x20 ++ sign ++ part ++ rest
    let isNumeral := fun b : Byte => 0x30 ≤ b.toNat ∧ b.toNat ≤ 0x39
    let stops := (part.filter fun b => b = 0x2E).length
    let digits := part.filter fun b => b ≠ 0x2E
    let wellFormed := (∀ b ∈ digits, isNumeral b) ∧ stops ≤ 1 ∧ 1 ≤ digits.length ∧ digits.length ≤ 9
    let whole := digits.foldl (fun n b => 10 * n + (b.toNat - 0x30)) 0
    let fraction := (part.dropWhile fun b => b ≠ 0x2E).length - 1
    let magnitude := if fraction ≤ d then whole * 10 ^ (d - fraction) else whole / 10 ^ (fraction - d)
    (wellFormed → magnitude ≤ 999999999 →
      readDecimal d field = some (if sign = [0x2D] then -Int.ofNat magnitude else Int.ofNat magnitude))
    ∧ (wellFormed → 999999999 < magnitude → readDecimal d field = none)
    ∧ (¬wellFormed → readDecimal d field = none)

/-- One repetition whose read succeeds adjusts, sets BELOW or ABOVE, accumulates into its accumulator and records the last
value and Z; the first read that fails sets FAIL, keeps what the repetitions before it left and ends the group
(R46 to R50, R64). -/
def Obligations.RepetitionsRunUntilAFailure : Prop :=
  ∀ (r : ActionRecord) (e : ExtractStage) (fields : List (List Byte)) (n i : Nat) (res : StageResults)
    (bank : Sparse Accumulator), Sparse.wf accumulatorDefault bank = true →
    (∀ v, readField e.decimals fields (e.field + i) = some v →
      let x := v + r.adjust.getD 0
      ∃ (res' : StageResults) (bank' : Sparse Accumulator),
        repetitions r e fields (n + 1) i res bank = repetitions r e fields n (i + 1) res' bank'
        ∧ res'.matched = res.matched ∧ res'.fail = res.fail ∧ res'.last = some x ∧ (res'.zero = true ↔ x = 0)
        ∧ (∀ l, r.limit = some l → (res'.below = true ↔ res.below = true ∨ x < l.low)
          ∧ (res'.above = true ↔ res.above = true ∨ l.high < x))
        ∧ (r.limit = none → res'.below = res.below ∧ res'.above = res.above)
        ∧ (∀ a, r.accumulate = some a → ∀ m, bankGet bank' m =
          if m = a.base + (if a.step then i else 0) then (bankGet bank m).accumulate x a.weight a.scale
          else bankGet bank m)
        ∧ (r.accumulate = none → bank' = bank))
    ∧ (readField e.decimals fields (e.field + i) = none →
      repetitions r e fields (n + 1) i res bank = ({ res with fail := true }, bank))
    ∧ repetitions r e fields 0 i res bank = (res, bank)

/-- One accumulation: the term is the value times the weight times 2 to the scale, rounded down; the exact total becomes the
sum, is clamped in SATURATE or wraps in WRAP with the tally; an overflow sets the sticky flag; the sample is counted
(R59 to R63). -/
def Obligations.AccumulationIsExact : Prop :=
  ∀ (a : Accumulator) (value weight scale : Int), a.inRange → -1999999998 ≤ value → value ≤ 1999999998 →
    -32767 ≤ weight → weight ≤ 32767 → -15 ≤ scale → scale ≤ 1 →
    let term := accumulatorTerm value weight scale
    let total := a.sum + term
    let a' := a.accumulate value weight scale
    (scale = 0 → term = value * weight) ∧ (scale = 1 → term = 2 * (value * weight))
    ∧ -(2 ^ 46) < value * weight ∧ value * weight < 2 ^ 46 ∧ -(2 ^ 47) < term ∧ term < 2 ^ 47
    ∧ (∀ k : Nat, scale = -(k : Int) → (2 : Int) ^ k * term ≤ value * weight ∧ value * weight < (2 : Int) ^ k * (term + 1))
    ∧ -(2 ^ 48) < total ∧ total < 2 ^ 48
    ∧ a'.samples = min (a.samples + 1) 4294967295 ∧ a'.mode = a.mode ∧ a'.inRange
    ∧ (-(2 ^ 47) ≤ total → total < 2 ^ 47 → a'.sum = total ∧ a'.tally = a.tally ∧ a'.sticky = a.sticky)
    ∧ (2 ^ 47 ≤ total → a'.sticky = true
      ∧ (a.mode = .saturate → a'.sum = 2 ^ 47 - 1 ∧ a'.tally = a.tally)
      ∧ (a.mode = .wrap → a'.sum = total - 2 ^ 48 ∧ a'.tally = min (a.tally + 1) 32767))
    ∧ (total < -(2 ^ 47) → a'.sticky = true
      ∧ (a.mode = .saturate → a'.sum = -(2 ^ 47) ∧ a'.tally = a.tally)
      ∧ (a.mode = .wrap → a'.sum = total + 2 ^ 48 ∧ a'.tally = max (a.tally - 1) (-32768)))

/-- The 17 verdict conditions (R73), and the overflow test of ACC_OVERFLOW and ACC_CLEAN, which reads the sticky flag of the
base accumulator and clears it as one access, whatever the verdict (R65, R74). A record without an accumulate stage makes no
such test and leaves the bank alone (R36, R65). -/
def Obligations.VerdictConditionsReadTheResults : Prop :=
  (∀ (x : StageResults) (sticky attention : Bool),
    let holds := fun c : Condition => c.holds x sticky attention = true
    holds .always ∧ ¬holds .never
    ∧ (holds .inLimits ↔ x.fail = false ∧ x.below = false ∧ x.above = false)
    ∧ (holds .outOfLimits ↔ x.fail = false ∧ (x.below = true ∨ x.above = true))
    ∧ (holds .below ↔ x.fail = false ∧ x.below = true) ∧ (holds .above ↔ x.fail = false ∧ x.above = true)
    ∧ (holds .matchEq ↔ x.matched = some .eq) ∧ (holds .matchNe ↔ x.matched = some .lt ∨ x.matched = some .gt)
    ∧ (holds .matchLt ↔ x.matched = some .lt) ∧ (holds .matchGt ↔ x.matched = some .gt)
    ∧ (holds .valueZero ↔ x.fail = false ∧ x.zero = true) ∧ (holds .valueNonzero ↔ x.fail = false ∧ x.zero = false)
    ∧ (holds .extractFail ↔ x.fail = true) ∧ (holds .accOverflow ↔ sticky = true) ∧ (holds .accClean ↔ sticky = false)
    ∧ (holds .attention ↔ attention = true) ∧ (holds .notAttention ↔ attention = false))
  ∧ (∀ (r : ActionRecord) (a : AccumulateStage) (x : StageResults) (attention : Bool) (bank : Sparse Accumulator),
    Sparse.wf accumulatorDefault bank = true → r.accumulate = some a →
    (runVerdict r attention x bank).1 = r.condition.holds x (bankGet bank a.base).sticky attention
    ∧ ∀ n, bankGet (runVerdict r attention x bank).2 n =
        if n = a.base ∧ (r.condition = .accOverflow ∨ r.condition = .accClean) then
          { bankGet bank n with sticky := false }
        else bankGet bank n)
  ∧ ∀ (r : ActionRecord) (x : StageResults) (attention : Bool) (bank : Sparse Accumulator), r.accumulate = none →
    runVerdict r attention x bank = (r.condition.holds x false attention, bank)

/-! ## Units of work -/

/-- DOWNSTREAM_TAKE: the classifier takes the head of TRQ under the live set, and delivers what its disposition asks: a copy
where the mailbox has room, then FSQ or a Withheld notice, or the classifier stalls with that output (R19 to R24, R75 to
R77). It takes none while it holds a unit, nor from an empty TRQ (R20); that the row answers next then is the model's choice
(log 3). -/
def Obligations.DownstreamTakeDelivers : Prop :=
  (∀ s : State, s.dc ≠ .idle ∨ s.tp.trq = [] → exec .downstreamTake s = .next s)
  ∧ ∀ (s : State) (t : Telegram) (rest : List Telegram), s.dc = .idle → s.tp.trq = t :: rest → s.drainHeld →
    let j := ((s.setTrq rest).judge .downstream s.ts.live t).1
    let u := ((s.setTrq rest).judge .downstream s.ts.live t).2
    let forwards := j.disposition = .forward ∨ j.disposition = .forwardCopy
    let copies := j.disposition = .copy ∨ j.disposition = .forwardCopy
    let copy : MailboxCopy :=
      ⟨.downstream, .trunk, j.result, j.verdict, t.payload.length, t.address, t.function, j.payload.take 224⟩
    (copies → s.mb.entries.length < 8) →
    ∃ v : State, v = { u with mb := v.mb }
    ∧ (copies → v.mb = ⟨s.mb.entries ++ [⟨s.mb.next, copy⟩], s.mb.next + 1⟩) ∧ (¬copies → v.mb = s.mb)
    ∧ (forwards → s.fsq.length < 16 → exec .downstreamTake s = .next (State.serviceTrunk
      { v with fsq := s.fsq ++ [⟨⟨t.address, t.function, j.payload⟩, j.urgent⟩] }))
    ∧ (forwards → 16 ≤ s.fsq.length → exec .downstreamTake s = .next (State.serviceTrunk
      { v with dc := .stalled ⟨.request t, s.ts.live, some j.result, j.verdict,
        [.fieldQueue ⟨⟨t.address, t.function, j.payload⟩, j.urgent⟩], none⟩ }))
    ∧ (¬forwards → t.station = 63 → exec .downstreamTake s = .next v.serviceTrunk)
    ∧ (¬forwards → t.station ≠ 63 →
      let notice : TsqEntry :=
        ⟨0xE2, [BitVec.ofNat 8 t.station.toNat, t.function] ++ twoBytes j.result.code, false⟩
      (s.tp.tsq.length < 16 → s.firstWaiting = none → exec .downstreamTake s = .next (State.serviceTrunk
        (State.count { v with tp := { v.tp with tsq := s.tp.tsq ++ [notice] } } .withheld)))
      ∧ (16 ≤ s.tp.tsq.length ∨ s.firstWaiting ≠ none → exec .downstreamTake s = .next (State.serviceTrunk
        (State.count { v with dc := .stalled ⟨.request t, s.ts.live, some j.result, j.verdict,
          [.trunkQueue notice], none⟩ } .withheld))))

/-- UPSTREAM_TAKE of a reply and of a silence: a trunk-owned reply is copied and admitted to TSQ as its disposition asks, a
sweep-owned one is copied and reported with its verdict; a silence gives a No-reply notice or a report with the verdict false
and touches no accumulator and no mailbox (R20, R23, R31 to R33, R75, R78, R79). The classifier takes none while it holds a
unit, nor from an empty FRQ (R20); that the row answers next then is the model's choice (log 3). -/
def Obligations.UpstreamTakeDelivers : Prop :=
  (∀ s : State, s.uc ≠ .idle ∨ s.flc.frq = [] → exec .upstreamTake s = .next s)
  ∧ ∀ (s : State) (r : OutcomeRecord) (rest : List OutcomeRecord), s.uc = .idle → s.flc.frq = r :: rest → s.drainHeld →
    let s1 : State := { s with flc := { s.flc with frq := rest } }
    let reported := fun (v : State) (k : SweepId) (index : Nat) (set : SetId) (silent verdict : Bool) =>
      let c := (s.ss.get k).applyOutcome silent verdict (itemStation (s.ts.table set) index)
      State.serviceTrunk (State.checkDrain { v with ss := s.ss.set k { c with outstanding := none } })
    (∀ t, r.outcome = .reply t →
      let j := (s1.judge .upstream s.ts.live t).1
      let u := (s1.judge .upstream s.ts.live t).2
      let forwards := j.disposition = .forward ∨ j.disposition = .forwardCopy
      let copies := j.disposition = .copy ∨ j.disposition = .forwardCopy
      let copy : MailboxCopy :=
        ⟨.upstream, r.owner, j.result, j.verdict, t.payload.length, t.address, t.function, j.payload.take 224⟩
      (copies → s.mb.entries.length < 8) →
      ∃ v : State, v = { u with mb := v.mb }
      ∧ (copies → v.mb = ⟨s.mb.entries ++ [⟨s.mb.next, copy⟩], s.mb.next + 1⟩) ∧ (¬copies → v.mb = s.mb)
      ∧ (r.owner = .trunk → ¬forwards → exec .upstreamTake s = .next v.serviceTrunk)
      ∧ (r.owner = .trunk → forwards → s.tp.tsq.length < 16 → s.firstWaiting = none →
        exec .upstreamTake s = .next (State.serviceTrunk
          { v with tp := { s.tp with tsq := s.tp.tsq ++ [⟨t.function, j.payload, false⟩] } }))
      ∧ (r.owner = .trunk → forwards → 16 ≤ s.tp.tsq.length ∨ s.firstWaiting ≠ none →
        exec .upstreamTake s = .next (State.serviceTrunk
          { v with uc := .stalled ⟨.outcome r, s.ts.live, some j.result, j.verdict,
            [.trunkQueue ⟨t.function, j.payload, false⟩], none⟩ }))
      ∧ ∀ k index set, r.owner = .sweep k → (s.ss.get k).state = .running →
        (s.ss.get k).outstanding = some (index, set) →
        exec .upstreamTake s = .next (reported v k index set false j.verdict))
    ∧ ∀ reason : Byte, (r.outcome = .noReply ∧ reason = 1) ∨ (r.outcome = .corrupt ∧ reason = 2) →
      let notice : TsqEntry := ⟨0xE1, [BitVec.ofNat 8 r.station.toNat, r.function, reason], false⟩
      (r.owner = .trunk → s.tp.tsq.length < 16 → s.firstWaiting = none →
        exec .upstreamTake s = .next (State.serviceTrunk { s1 with tp := { s.tp with tsq := s.tp.tsq ++ [notice] } }))
      ∧ (r.owner = .trunk → 16 ≤ s.tp.tsq.length ∨ s.firstWaiting ≠ none →
        exec .upstreamTake s = .next (State.serviceTrunk
          { s1 with uc := .stalled ⟨.outcome r, s.ts.live, none, false, [.trunkQueue notice], none⟩ }))
      ∧ ∀ k index set, r.owner = .sweep k → (s.ss.get k).state = .running →
        (s.ss.get k).outstanding = some (index, set) →
        exec .upstreamTake s = .next (reported s1 k index set true false)

/-- A copy finds room, is lost under LOSE, or waits under HOLD with the hold limit (R82 to R85); HOLD_TIMER_EXPIRY loses the
waiting copy and the classifier goes on with its next outputs (R85). -/
def Obligations.CopiesArePlacedLostOrHeld : Prop :=
  (∀ (d : Direction) (u : UnitOfWork) (c : MailboxCopy) (outputs : List Output) (s : State),
    (s.mb.entries.length < 8 → deliver d u (.mailbox c :: outputs) s
      = deliver d u outputs { s with mb := ⟨s.mb.entries ++ [⟨s.mb.next, c⟩], s.mb.next + 1⟩ })
    ∧ (8 ≤ s.mb.entries.length → s.config.policy = .lose → deliver d u (.mailbox c :: outputs) s
      = deliver d u outputs
        { s with counters := { s.counters with mailboxLost := min (s.counters.mailboxLost + 1) 65535 } })
    ∧ (8 ≤ s.mb.entries.length → s.config.policy = .hold → deliver d u (.mailbox c :: outputs) s
      = s.setClassifier d
        (.stalled { u with outputs := .mailbox c :: outputs, holdTimer := some s.config.holdLimit })))
  ∧ ∀ (s : State) (d : Direction) (u : UnitOfWork) (c : MailboxCopy) (outputs : List Output) (n : Nat),
    s.classifier d = .stalled u → u.outputs = .mailbox c :: outputs → u.holdTimer = some n →
    let lost := State.count s .mailboxLost
    (∃ v : State, v = deliver d u outputs (lost.setClassifier d (.working u))
      ∧ exec (.holdTimerExpiry d) s = .next v.serviceTrunk)
    ∧ (outputs = [] → exec (.holdTimerExpiry d) s = .next (State.serviceTrunk (lost.setClassifier d .idle).checkDrain))
    ∧ (∀ e, outputs = [.fieldQueue e] → s.fsq.length < 16 → exec (.holdTimerExpiry d) s = .next (State.serviceTrunk
      (State.checkDrain (State.setClassifier { lost with fsq := s.fsq ++ [e] } d .idle))))

/-- MAILBOX_TAKE: EMPTY on an empty mailbox; else the oldest entry leaves and is returned with the number that remain, and a
slot that a classifier waits for is filled in the same act, the Upstream Classifier first (R81, R86, R175). -/
def Obligations.MailboxTakeReturnsTheOldest : Prop :=
  ∀ (s : State) (t : Telegram) (rest : List Telegram), s.atHead t rest → t.function = 0x50 → t.payload = [] →
    (s.mb.entries = [] → exec .mailboxTake s = .next ((s.takeCommand rest).answer (bareResponse 0x50 6)))
    ∧ ∀ e others, s.mb.entries = e :: others →
      let c := e.content
      let image : List Byte :=
        [(if c.direction = .upstream then 0x80 else 0) + (if c.verdict then 0x40 else 0) + c.owner.code]
          ++ twoBytes c.result.code ++ twoBytes e.sequence.toNat
          ++ [BitVec.ofNat 8 c.originalLength, BitVec.ofNat 8 c.payload.length, c.address, c.function] ++ c.payload
      let s1 : State := { s.takeCommand rest with mb := ⟨others, s.mb.next⟩ }
      (s.uc.waitsForMailbox = none → s.dc.waitsForMailbox = none → exec .mailboxTake s = .next (s1.answer
        (okResponse 0x50 (BitVec.ofNat 8 others.length :: image))))
      ∧ (∀ u copy outputs, s.uc = .stalled u → u.outputs = .mailbox copy :: outputs → others.length < 8 →
        ∃ v : State, v = deliver .upstream u outputs
            { s1 with uc := .working u, mb := ⟨others ++ [⟨s.mb.next, copy⟩], s.mb.next + 1⟩ }
          ∧ exec .mailboxTake s = .next (v.answer (okResponse 0x50 (BitVec.ofNat 8 v.mb.entries.length :: image))))
      ∧ (∀ u copy outputs, s.uc.waitsForMailbox = none → s.dc = .stalled u → u.outputs = .mailbox copy :: outputs →
        others.length < 8 →
        ∃ v : State, v = deliver .downstream u outputs
            { s1 with dc := .working u, mb := ⟨others ++ [⟨s.mb.next, copy⟩], s.mb.next + 1⟩ }
          ∧ exec .mailboxTake s = .next (v.answer (okResponse 0x50 (BitVec.ofNat 8 v.mb.entries.length :: image))))

/-! ## The field line -/

/-- The Line Arbiter's decision: the candidates of R121; under an open bracket the trunk side alone, with no tenure moved
(R129); an urgent head takes the line and a full trunk tenure (R124); else the tenure table (R123). -/
def Obligations.DecisionsGoByTenure : Prop :=
  ∀ s : State,
    let trunk := ∃ e rest, s.fsq = e :: rest ∧ (e.telegram.station = 63 ∨ s.flc.frq.length < 4)
    let sweep := fun k =>
      (s.ss.get k).state = .running ∧ (s.ss.get k).outstanding = none ∧ s.flc.frq.length < 4
    let sweeps := ∃ k, sweep k
    let urgent := ∃ e rest, s.fsq = e :: rest ∧ e.urgent = true
    let limit := s.config.tenureLimit
    let spent := fun other : Side =>
      if s.la.counter - 1 = 0 then { s.la with holder := other, counter := limit }
      else { s.la with counter := s.la.counter - 1 }
    (s.la.bracket ≠ none → trunk →
      s.decideGrant = some (.trunk, { s.la with grants := min (s.la.grants + 1) 65535 }))
    ∧ (s.la.bracket ≠ none → ¬trunk → s.decideGrant = none)
    ∧ (s.la.bracket = none → urgent → trunk →
      s.decideGrant = some (.trunk, { s.la with holder := .trunk, counter := limit }))
    ∧ (s.la.bracket = none → ¬(urgent ∧ trunk) →
      (trunk → sweeps → s.la.holder = .trunk → s.decideGrant = some (.trunk, spent .sweeps))
      ∧ (trunk → sweeps → s.la.holder = .sweeps → s.decideGrant = some (.sweeps, spent .trunk))
      ∧ (trunk → ¬sweeps → s.la.holder = .trunk → s.decideGrant = some (.trunk, s.la))
      ∧ (trunk → ¬sweeps → s.la.holder = .sweeps →
        s.decideGrant = some (.trunk, { s.la with holder := .trunk, counter := limit }))
      ∧ (¬trunk → sweeps → s.la.holder = .sweeps → s.decideGrant = some (.sweeps, s.la))
      ∧ (¬trunk → sweeps → s.la.holder = .trunk →
        s.decideGrant = some (.sweeps, { s.la with holder := .sweeps, counter := limit }))
      ∧ (¬trunk → ¬sweeps → s.decideGrant = none))

/-- The sweep granted is the first candidate after the round-robin pointer in cyclic order; the pointer is set to it at a
sweep grant, and a trunk grant and a decision that grants nothing leave the pointer (R125). That a decision which grants
nothing leaves everything else too is the model's choice (log 3). -/
def Obligations.SweepsAreServedInTurn : Prop :=
  ∀ s : State,
    (∀ k, s.nextSweep = some k ↔
      s.sweepCandidate k = true
        ∧ ∀ j, s.sweepCandidate j = true → (k - s.la.pointer - 1).val ≤ (j - s.la.pointer - 1).val)
    ∧ (s.nextSweep = none ↔ ∀ k, s.sweepCandidate k = false)
    ∧ (∀ la k, s.nextSweep = some k → (s.grant .sweeps la).la = { la with pointer := k })
    ∧ (∀ la, (s.grant .trunk la).la = la)
    ∧ (s.decideGrant = none → exec .lineArbiterDecision s = .next s)

/-- LINE_ARBITER_DECISION: a trunk grant takes the head of FSQ, lets a stalled Downstream Classifier place its telegram, and
starts its transaction; a sweep grant latches the live set and starts the item's, or halts LIST_VOID on an undefined item;
with no decision the command does nothing (log 3; R104 to R106, R122, R126, R136, R137). -/
def Obligations.GrantsStartTransactions : Prop :=
  ∀ s : State,
    let start := fun (v : State) (owner : Owner) (station : Station) (function : Byte) (payload : List Byte)
        (item : Option (Nat × SetId)) =>
      State.serviceTrunk
        { v with
          flc := { s.flc with
            state := .sending, record := some ⟨owner, station, function, station == 63, false, item⟩
            window := .stopped, settle := none }
          fp := { s.fp with
            framer := .hunt, driverEnable := true
            sending := some (lineBytes (addressByte false false station) function payload) } }
    (s.flc.state = .idle → s.fp.change = none →
      (∀ la e rest, s.decideGrant = some (.trunk, la) → s.fsq = e :: rest →
        let q := e.telegram
        (s.dc.waitsForFieldQueue = none → exec .lineArbiterDecision s = .next
          (start { s with la := la, fsq := rest } .trunk q.station q.function q.payload none))
        ∧ ∀ u f, s.dc = .stalled u → u.outputs = [.fieldQueue f] → rest.length < 16 →
          exec .lineArbiterDecision s = .next
            (start (State.checkDrain { s with la := la, fsq := rest ++ [f], dc := .idle })
              .trunk q.station q.function q.payload none))
      ∧ ∀ la k, s.decideGrant = some (.sweeps, la) → s.nextSweep = some k →
        let c := s.ss.get k
        let v : State := { s with la := { la with pointer := k } }
        (∀ i, (s.ts.table s.ts.live).item c.cursor = some i →
          exec .lineArbiterDecision s = .next
            (start { v with ss := s.ss.set k { c with outstanding := some (c.cursor, s.ts.live) } } (.sweep k) i.station
              i.function ((s.ts.table s.ts.live).patternRun i.pattern) (some (c.cursor, s.ts.live))))
        ∧ ((s.ts.table s.ts.live).item c.cursor = none →
          exec .lineArbiterDecision s = .next (State.serviceTrunk
            { v with
              ss := s.ss.set k
                { c with
                  state := .halted, reason := .listVoid, stopStation := 63, rerun := false, stopPending := false
                  notice := if c.notify then some ⟨.listVoid, c.cursor, c.remaining, 63, c.passes, c.notice.isSome⟩
                    else c.notice } })))
    ∧ (s.flc.state ≠ .idle ∨ s.fp.change ≠ none ∨ s.decideGrant = none → exec .lineArbiterDecision s = .next s)

/-- The course of a transaction: the end of the request releases the driver and starts the reply window, or settling for a
broadcast; the window's expiry is NO_REPLY in AWAITING and noted in RECEIVING; an outcome enters FRQ unless the transaction
is abandoned, and settling begins; its end makes the line IDLE (R106 to R108, R112, R113, R115, R116). -/
def Obligations.TransactionsRunTheirCourse : Prop :=
  ∀ s : State,
    let settling := fun v : State =>
      { v with flc := { v.flc with state := .settling, window := .stopped, settle := some s.config.settleTime } }
    let ended := fun v : State => State.takeFieldChange
      { v with flc := { v.flc with state := .idle, record := none, window := .stopped, settle := none } }
    let released : State := { s with fp := { s.fp with driverEnable := false, sending := none } }
    (∀ r, s.flc.state = .sending → s.flc.record = some r →
      (r.broadcast = false → exec .requestSent s = .next
        { released with flc := { s.flc with state := .awaiting, window := .running s.config.replyWindow } })
      ∧ (r.broadcast = true → s.config.settleTime ≠ 0 → exec .requestSent s = .next (settling released))
      ∧ (r.broadcast = true → s.config.settleTime = 0 → exec .requestSent s = .next (ended released)))
    ∧ (∀ n, s.flc.window = .running n →
      (s.flc.state = .awaiting →
        exec .replyWindowExpiry s = .next ((s.count .fieldNoReply).closeTransaction .noReply))
      ∧ (s.flc.state = .receiving →
        exec .replyWindowExpiry s = .next { s with flc := { s.flc with window := .expired } }))
    ∧ (∀ r o, s.flc.record = some r →
      let placed : State := if r.abandoned then s
        else { s with flc := { s.flc with frq := s.flc.frq ++ [⟨r.owner, r.station, r.function, o⟩] } }
      (s.config.settleTime ≠ 0 → s.closeTransaction o = settling placed)
      ∧ (s.config.settleTime = 0 → s.closeTransaction o = ended placed))
    ∧ (s.flc.state = .settling → exec .settleTimerExpiry s = .next (ended s))
    ∧ ((s.fp.change = none ∨ s.flc.state ≠ .idle ∨ s.fp.framer ≠ .hunt) → s.takeFieldChange = s)
    ∧ ∀ l, s.fp.change = some l → s.flc.state = .idle → s.fp.framer = .hunt →
      s.takeFieldChange = { s with fp := { s.fp with line := l, change := none } }

/-- FIELD_TELEGRAM_END: in the reply phase a good answer is the REPLY, a bad telegram CORRUPT, and a mismatch is counted and
the Field Line Controller awaits again, or NO_REPLY if the window has expired; outside it a good telegram is counted as
unsolicited and a bad one discarded (R7, R108 to R112). -/
def Obligations.FieldTelegramsAreJudged : Prop :=
  ∀ (s : State) (chars : List Rx) (f : Framer) (e : Ended), s.fp.driverEnable = false →
    s.fp.framer.takeAll chars = (f, [e]) → (s.fp.framer.takeAll chars.dropLast).2 = [] →
    let s1 : State := { s with fp := { s.fp with framer := .hunt } }
    let replyPhase := (s.flc.state = .receiving ∧ s.fp.framer ≠ .hunt) ∨ (s.flc.state = .awaiting ∧ s.fp.framer = .hunt)
    (∀ r, replyPhase → s.flc.record = some r →
      let answers := fun t : Telegram =>
        t.replyFlag = true ∧ t.station = r.station ∧ t.function = r.function
      (∀ t, e = .good t → answers t →
        exec (.fieldTelegramEnd chars) s = .next (s1.closeTransaction (.reply t)).takeFieldChange)
      ∧ (∀ t, e = .good t → ¬answers t → s.flc.window ≠ .expired →
        exec (.fieldTelegramEnd chars) s = .next
          (State.count { s1 with flc := { s.flc with state := .awaiting } } .fieldMismatch))
      ∧ (∀ t, e = .good t → ¬answers t → s.flc.window = .expired →
        exec (.fieldTelegramEnd chars) s = .next
          (((s1.count .fieldMismatch).count .fieldNoReply).closeTransaction .noReply).takeFieldChange)
      ∧ (e = .corrupt ∨ e = .malformed →
        exec (.fieldTelegramEnd chars) s = .next
          ((s1.count .fieldCorrupt).closeTransaction .corrupt).takeFieldChange))
    ∧ (s.flc.state = .idle ∨ s.flc.state = .settling →
      (∀ t, e = .good t →
        exec (.fieldTelegramEnd chars) s = .next (State.takeFieldChange (s1.count .fieldUnsolicited)))
      ∧ (e = .corrupt ∨ e = .malformed → exec (.fieldTelegramEnd chars) s = .next s1.takeFieldChange))

/-- BRACKET_OPEN, BRACKET_CLOSE and the bracket timer's expiry: a timeout of 0 is BAD_ARG; an opening from CLOSED sets the
grant count to 0, a re-open keeps it; a close makes no notice; an expiry closes and fills the notice slot (R128, R130,
R131). -/
def Obligations.BracketsOpenCloseAndExpire : Prop :=
  (∀ (s : State) (t : Telegram) (rest : List Telegram), s.atHead t rest →
    (∀ hi lo, t.function = 0x60 → t.payload = [hi, lo] →
      let timeout := 256 * hi.toNat + lo.toNat
      (timeout = 0 → exec .bracketOpen s = .next ((s.takeCommand rest).answer (bareResponse 0x60 2)))
      ∧ (timeout ≠ 0 → exec .bracketOpen s = .next (State.answer
        { s.takeCommand rest with la := { s.la with
          bracket := some timeout, grants := if s.la.bracket = none then 0 else s.la.grants } }
        (okResponse 0x60 []))))
    ∧ (t.function = 0x61 → t.payload = [] → exec .bracketClose s = .next (State.answer
      { s.takeCommand rest with la := { s.la with bracket := none } } (okResponse 0x61 []))))
  ∧ ∀ (s : State) (n : Nat), s.la.bracket = some n →
    (s.la.notice = none → exec .bracketTimerExpiry s = .next (State.serviceTrunk
      { s with la := { s.la with bracket := none, notice := some ⟨1, s.la.grants⟩ } }))
    ∧ ∀ x, s.la.notice = some x → exec .bracketTimerExpiry s = .next (State.serviceTrunk
      { s with la := { s.la with bracket := none, notice := some ⟨min (x.expiries + 1) 255, s.la.grants⟩ } })

/-! ## Sweeps and attention -/

/-- SWEEP_LOAD, SWEEP_START, SWEEP_RESUME, SWEEP_STOP and SWEEP_READ: the sweep number is checked first (R147), then each
does what its rule gives in each state (R148 to R152). That SWEEP_STOP halts a RUNNING sweep with no item outstanding also
where an attention trigger has just begun its pass is the model's reading of R151 beside the last sentence of R161
(log 23). -/
def Obligations.SweepCommandsActOnOneContext : Prop :=
  ∀ (s : State) (t : Telegram) (rest : List Telegram) (n : Byte), s.atHead t rest →
    let answered := fun e : TsqEntry => (Host.Outcome.next ((s.takeCommand rest).answer e) : Host.Outcome State Fault Refusal)
    let changed := fun (c : Sweep) (code : Byte) => (Host.Outcome.next (State.answer
      { s.takeCommand rest with ss := s.ss.set (Fin.ofNat 4 n.toNat) c } (okResponse code [])) :
        Host.Outcome State Fault Refusal)
    let c := s.ss.get (Fin.ofNat 4 n.toNat)
    (∀ m f c1 c0 r q p1 p0 x, t.function = 0x40 → t.payload = [n, m, f, c1, c0, r, q, p1, p0, x] →
      let count := 256 * c1.toNat + c0.toNat
      let period := 256 * p1.toNat + p0.toNat
      let bad := 3 < m.toNat ∨ count = 0 ∨ 256 < count ∨ 256 < f.toNat + count ∨ r = 0 ∨ 15 < q.toNat
        ∨ (1 ≤ period ∧ period ≤ 9) ∨ 1 < x.toNat
      (3 < n.toNat → exec .sweepLoad s = answered (bareResponse 0x40 2))
      ∧ (n.toNat ≤ 3 → c.state = .running → exec .sweepLoad s = answered (bareResponse 0x40 1))
      ∧ (n.toNat ≤ 3 → c.state ≠ .running → bad → exec .sweepLoad s = answered (bareResponse 0x40 2))
      ∧ (n.toNat ≤ 3 → c.state ≠ .running → ¬bad → ∃ mode : SweepMode, mode.code = m ∧ exec .sweepLoad s = changed
        { c with
          state := .idle, mode := mode, first := f.toNat, count := count, cursor := f.toNat, remaining := count
          retryLimit := r.toNat, retryTally := 0, silenceLimit := q.toNat, silenceRun := 0, period := period
          periodTimer := none, notify := x == 1, rerun := false, stopPending := false, reason := .none
          stopStation := 63, passes := 0 } 0x40))
    ∧ (t.payload = [n] → 3 < n.toNat →
      (t.function = 0x41 → exec .sweepStart s = answered (bareResponse 0x41 2))
      ∧ (t.function = 0x42 → exec .sweepResume s = answered (bareResponse 0x42 2))
      ∧ (t.function = 0x43 → exec .sweepStop s = answered (bareResponse 0x43 2))
      ∧ (t.function = 0x44 → exec .sweepRead s = answered (bareResponse 0x44 2)))
    ∧ (t.payload = [n] → n.toNat ≤ 3 →
      (t.function = 0x41 →
        (c.state = .running → exec .sweepStart s = answered (bareResponse 0x41 1))
        ∧ (c.state ≠ .running → exec .sweepStart s = changed
          { c with
            state := .running, cursor := c.first, remaining := c.count, retryTally := 0, silenceRun := 0
            rerun := false, stopPending := false, periodTimer := none } 0x41))
      ∧ (t.function = 0x42 →
        (c.state ≠ .halted → exec .sweepResume s = answered (bareResponse 0x42 5))
        ∧ (c.state = .halted → exec .sweepResume s = changed
          { c with
            state := .running, retryTally := 0, silenceRun := 0
            cursor := if c.remaining = 0 then c.first else c.cursor
            remaining := if c.remaining = 0 then c.count else c.remaining } 0x42))
      ∧ (t.function = 0x43 →
        (c.state = .idle ∨ c.state = .halted → exec .sweepStop s = answered (okResponse 0x43 []))
        ∧ (c.state = .waiting → exec .sweepStop s = changed { c with state := .idle, periodTimer := none } 0x43)
        ∧ (c.state = .running → c.outstanding ≠ none →
          exec .sweepStop s = changed { c with stopPending := true } 0x43)
        ∧ (c.state = .running → c.outstanding = none → exec .sweepStop s = changed
          { c with
            state := .halted, reason := .stopped, stopStation := 63, rerun := false, stopPending := false
            notice := if c.notify then some ⟨.stopped, c.cursor, c.remaining, 63, c.passes, c.notice.isSome⟩
              else c.notice } 0x43))
      ∧ (t.function = 0x44 → exec .sweepRead s = answered (okResponse 0x44
        ([n, c.state.code, c.mode.code, BitVec.ofNat 8 c.first] ++ twoBytes c.count ++ twoBytes c.cursor
          ++ twoBytes c.remaining
          ++ [BitVec.ofNat 8 c.retryLimit, BitVec.ofNat 8 c.retryTally, BitVec.ofNat 8 c.silenceLimit,
            BitVec.ofNat 8 c.silenceRun]
          ++ twoBytes c.period ++ twoBytes (c.periodTimer.getD 0)
          ++ [(if c.notify then 1 else 0) + (if c.rerun then 2 else 0) + (if c.stopPending then 4 else 0)
            + (if c.outstanding = none then 0 else 8) + (if c.notice = none then 0 else 16)
            + (if c.notice.any (·.superseded) then 32 else 0)]
          ++ (match c.outstanding with
            | none => [0, 0]
            | some (index, set) => [BitVec.ofNat 8 index, set.code])
          ++ [c.reason.code, BitVec.ofNat 8 c.stopStation.toNat] ++ twoBytes c.passes.toNat))))

/-- Applying a report to a sweep: the silence run first, then a pending stop, then the silence limit, then the step of the
mode; a complete pass is an end, and so is every entry into HALTED (R138 to R145). -/
def Obligations.ReportsAreAppliedInOrder : Prop :=
  ∀ (c : Sweep) (silent verdict : Bool) (station : Station), 1 ≤ c.remaining →
    let c1 := { c with silenceRun := if silent then min (c.silenceRun + 1) 15 else 0 }
    let notified := fun x : Sweep =>
      if x.notify then
        { x with notice := some ⟨x.reason, x.cursor, x.remaining, x.stopStation, x.passes, x.notice.isSome⟩ }
      else x
    let halted := fun (x : Sweep) (reason : EndReason) => notified
      { x with state := .halted, reason := reason, stopStation := station, rerun := false, stopPending := false }
    let moved := fun x : Sweep => { x with cursor := x.cursor + 1, remaining := x.remaining - 1 }
    let completed := fun x : Sweep =>
      { moved x with passes := x.passes + 1, reason := .complete, stopStation := station }
    let advanced := fun x : Sweep =>
      if x.remaining ≠ 1 then moved x
      else
        let y := notified (completed x)
        if x.rerun then { y with cursor := x.first, remaining := x.count, retryTally := 0, rerun := false }
        else if 0 < x.period then { y with state := .waiting, periodTimer := some x.period }
        else { y with state := .idle }
    let applied := c.applyOutcome silent verdict station
    let stops := c.stopPending = true
    let tooSilent := c.silenceLimit ≠ 0 ∧ c1.silenceRun = c.silenceLimit
    (stops → applied = halted c1 .stopped)
    ∧ (¬stops → tooSilent → applied = halted c1 .silent)
    ∧ (¬stops → ¬tooSilent →
      (c.mode = .every → applied = advanced c1)
      ∧ (c.mode = .haltOnFalse → verdict = true → applied = advanced c1)
      ∧ (c.mode = .haltOnFalse → verdict = false → applied = halted c1 .qualFalse)
      ∧ (c.mode = .seek → verdict = false → applied = advanced c1)
      ∧ (c.mode = .seek → verdict = true → c.remaining ≠ 1 → applied = halted (moved c1) .found)
      ∧ (c.mode = .seek → verdict = true → c.remaining = 1 → applied = halted (completed c1) .found)
      ∧ (c.mode = .retry → verdict = true → applied = advanced { c1 with retryTally := 0 })
      ∧ (c.mode = .retry → verdict = false → c.retryTally + 1 = c.retryLimit →
        applied = halted { c1 with retryTally := c.retryTally + 1 } .retryLimit)
      ∧ (c.mode = .retry → verdict = false → c.retryTally + 1 ≠ c.retryLimit →
        applied = { c1 with retryTally := c.retryTally + 1 }))

/-- PERIOD_TIMER_EXPIRY begins a new pass and keeps the silence run (R146); an attention assertion while enabled counts, makes
the slot pending and triggers the bound sweep, which starts or reruns; a disabled one and a release move the kept level alone
(R153, R157, R159, R161). An assertion while the level is ASSERTED does not happen (log 3). -/
def Obligations.TimersAndAttentionStartPasses : Prop :=
  ∀ s : State,
    (∀ k, (s.ss.get k).state = .waiting → exec (.periodTimerExpiry k) s = .next
      { s with
        ss := s.ss.set k
          { s.ss.get k with
            state := .running, cursor := (s.ss.get k).first, remaining := (s.ss.get k).count, retryTally := 0
            periodTimer := none } })
    ∧ (s.am.level = .released → s.config.attentionEnable = true →
      let s1 : State := { s with am := ⟨min (s.am.count + 1) 255, true, .asserted⟩ }
      (s.config.binding = none → exec .attentionAssertion s = .next s1.serviceTrunk)
      ∧ ∀ k, s.config.binding = some k →
        ((s.ss.get k).state = .running → exec .attentionAssertion s = .next (State.serviceTrunk
          { s1 with ss := s.ss.set k { s.ss.get k with rerun := true } }))
        ∧ ((s.ss.get k).state ≠ .running → exec .attentionAssertion s = .next (State.serviceTrunk
          { s1 with
            ss := s.ss.set k
              { s.ss.get k with
                state := .running, cursor := (s.ss.get k).first, remaining := (s.ss.get k).count, retryTally := 0
                silenceRun := 0, rerun := false, stopPending := false, periodTimer := none } })))
    ∧ (s.am.level = .released → s.config.attentionEnable = false →
      exec .attentionAssertion s = .next { s with am := { s.am with level := .asserted } })
    ∧ (s.am.level = .asserted → exec .attentionAssertion s = .next s)
    ∧ exec .attentionRelease s = .next { s with am := { s.am with level := .released } }

/-! ## Invariants that every step keeps -/

/-- The queues keep within their capacities, and FRQ keeps room for the outcome that is due (R9, R10, R13, R76, R80, R105,
R114). -/
def Obligations.StepKeepsQueuesBounded : Prop :=
  ∀ s t : State, s.QueuesBounded → step s = .next t → t.QueuesBounded

/-- The Field Line Controller's state, record, timers, the driver enable and the field framer go on agreeing (R6, R104 to
R108, R115). -/
def Obligations.StepKeepsFieldLineConsistent : Prop :=
  ∀ s t : State, s.FieldLineConsistent → step s = .next t → t.FieldLineConsistent

/-- Every accumulator and every number that an accumulation reads stays in its range (R34, R54, R58), the tables being in
their canonical form (log 14), which StepKeepsCountsAndTables keeps. -/
def Obligations.StepKeepsAccumulatorsInRange : Prop :=
  ∀ s t : State, s.TablesCanonical → s.AccumulatorsInRange → step s = .next t → t.AccumulatorsInRange

/-- Every sweep keeps its position in its pass, and has an item outstanding and a period timer only in RUNNING and in
WAITING (R135, R136, R146). -/
def Obligations.StepKeepsSweepsConsistent : Prop :=
  ∀ s t : State, s.SweepPositionsOk → s.SweepTimersOk → step s = .next t → t.SweepPositionsOk ∧ t.SweepTimersOk

/-- After a step nothing is due on the trunk side: no producer waits beside a free slot of TSQ, no head that may start
stands idle, no line change is overdue; the Table Store drains only while a consumer holds the edit set, which is held in no
other state; no classifier is WORKING and the Management Unit not EXECUTING, each step being whole (log 5; R12 to R17, R91,
R93). -/
def Obligations.StepLeavesNothingDue : Prop :=
  ∀ s t : State, s.Steady → s.EditSetFree → s.BetweenActs → step s = .next t →
    t.Steady ∧ t.EditSetFree ∧ t.BetweenActs

/-- The counters, the configuration, the tenure, the attention count, the mailbox's numbers, the hold output and the canonical
form of the tables (log 14) keep their invariants (R11, R58, R82, R120, R158, R172, R174). -/
def Obligations.StepKeepsCountsAndTables : Prop :=
  ∀ s t : State,
    s.counters.bounded → s.config.InRange → s.TenureBounded → s.AttentionConsistent → s.mb.numbered → s.HoldFollows →
    s.TablesCanonical → step s = .next t →
    t.counters.bounded ∧ t.config.InRange ∧ t.TenureBounded ∧ t.AttentionConsistent ∧ t.mb.numbered ∧ t.HoldFollows
      ∧ t.TablesCanonical

/-- Every invariant above holds right after reset. -/
def Obligations.InvariantsHoldAtReset : Prop :=
  State.reset.QueuesBounded ∧ State.reset.FieldLineConsistent ∧ State.reset.AccumulatorsInRange
  ∧ State.reset.SweepPositionsOk ∧ State.reset.SweepTimersOk ∧ State.reset.Steady ∧ State.reset.EditSetFree
  ∧ State.reset.BetweenActs ∧ State.reset.counters.bounded ∧ State.reset.config.InRange ∧ State.reset.TenureBounded
  ∧ State.reset.AttentionConsistent ∧ State.reset.mb.numbered ∧ State.reset.HoldFollows ∧ State.reset.TablesCanonical

end
end

