-- ==== Sys2Proof/Laws/State.lean ====
section
/-! SUPPORT. What each named update of State leaves alone and what it sets, field by field: every lemma holds by rfl and is
a simp lemma, so that no proof unfolds a record update. -/

namespace Sys2Proof.Machine


/-! ### count -/

@[simp] theorem State.count_tp (s : State) (c : Counter) : (s.count c).tp = s.tp := rfl
@[simp] theorem State.count_fp (s : State) (c : Counter) : (s.count c).fp = s.fp := rfl
@[simp] theorem State.count_flc (s : State) (c : Counter) : (s.count c).flc = s.flc := rfl
@[simp] theorem State.count_dc (s : State) (c : Counter) : (s.count c).dc = s.dc := rfl
@[simp] theorem State.count_uc (s : State) (c : Counter) : (s.count c).uc = s.uc := rfl
@[simp] theorem State.count_fsq (s : State) (c : Counter) : (s.count c).fsq = s.fsq := rfl
@[simp] theorem State.count_ab (s : State) (c : Counter) : (s.count c).ab = s.ab := rfl
@[simp] theorem State.count_mb (s : State) (c : Counter) : (s.count c).mb = s.mb := rfl
@[simp] theorem State.count_ts (s : State) (c : Counter) : (s.count c).ts = s.ts := rfl
@[simp] theorem State.count_la (s : State) (c : Counter) : (s.count c).la = s.la := rfl
@[simp] theorem State.count_ss (s : State) (c : Counter) : (s.count c).ss = s.ss := rfl
@[simp] theorem State.count_am (s : State) (c : Counter) : (s.count c).am = s.am := rfl
@[simp] theorem State.count_mu (s : State) (c : Counter) : (s.count c).mu = s.mu := rfl
@[simp] theorem State.count_config (s : State) (c : Counter) : (s.count c).config = s.config := rfl
@[simp] theorem State.count_pending (s : State) (c : Counter) : (s.count c).pending = s.pending := rfl
@[simp] theorem State.count_counters (s : State) (c : Counter) : (s.count c).counters = s.counters.bump c := rfl

/-! ### setTrq -/

@[simp] theorem State.setTrq_fp (s : State) (q : List Telegram) : (s.setTrq q).fp = s.fp := rfl
@[simp] theorem State.setTrq_flc (s : State) (q : List Telegram) : (s.setTrq q).flc = s.flc := rfl
@[simp] theorem State.setTrq_dc (s : State) (q : List Telegram) : (s.setTrq q).dc = s.dc := rfl
@[simp] theorem State.setTrq_uc (s : State) (q : List Telegram) : (s.setTrq q).uc = s.uc := rfl
@[simp] theorem State.setTrq_fsq (s : State) (q : List Telegram) : (s.setTrq q).fsq = s.fsq := rfl
@[simp] theorem State.setTrq_ab (s : State) (q : List Telegram) : (s.setTrq q).ab = s.ab := rfl
@[simp] theorem State.setTrq_mb (s : State) (q : List Telegram) : (s.setTrq q).mb = s.mb := rfl
@[simp] theorem State.setTrq_ts (s : State) (q : List Telegram) : (s.setTrq q).ts = s.ts := rfl
@[simp] theorem State.setTrq_la (s : State) (q : List Telegram) : (s.setTrq q).la = s.la := rfl
@[simp] theorem State.setTrq_ss (s : State) (q : List Telegram) : (s.setTrq q).ss = s.ss := rfl
@[simp] theorem State.setTrq_am (s : State) (q : List Telegram) : (s.setTrq q).am = s.am := rfl
@[simp] theorem State.setTrq_mu (s : State) (q : List Telegram) : (s.setTrq q).mu = s.mu := rfl
@[simp] theorem State.setTrq_counters (s : State) (q : List Telegram) : (s.setTrq q).counters = s.counters := rfl
@[simp] theorem State.setTrq_config (s : State) (q : List Telegram) : (s.setTrq q).config = s.config := rfl
@[simp] theorem State.setTrq_pending (s : State) (q : List Telegram) : (s.setTrq q).pending = s.pending := rfl
@[simp] theorem State.setTrq_tp_ownAddress (s : State) (q : List Telegram) : (s.setTrq q).tp.ownAddress = s.tp.ownAddress := rfl
@[simp] theorem State.setTrq_tp_framer (s : State) (q : List Telegram) : (s.setTrq q).tp.framer = s.tp.framer := rfl
@[simp] theorem State.setTrq_tp_mcq (s : State) (q : List Telegram) : (s.setTrq q).tp.mcq = s.tp.mcq := rfl
@[simp] theorem State.setTrq_tp_pause (s : State) (q : List Telegram) : (s.setTrq q).tp.pause = s.tp.pause := rfl
@[simp] theorem State.setTrq_tp_tsq (s : State) (q : List Telegram) : (s.setTrq q).tp.tsq = s.tp.tsq := rfl
@[simp] theorem State.setTrq_tp_sending (s : State) (q : List Telegram) : (s.setTrq q).tp.sending = s.tp.sending := rfl
@[simp] theorem State.setTrq_tp_headCounted (s : State) (q : List Telegram) : (s.setTrq q).tp.headCounted = s.tp.headCounted := rfl
@[simp] theorem State.setTrq_tp_line (s : State) (q : List Telegram) : (s.setTrq q).tp.line = s.tp.line := rfl
@[simp] theorem State.setTrq_tp_change (s : State) (q : List Telegram) : (s.setTrq q).tp.change = s.tp.change := rfl
@[simp] theorem State.setTrq_tp_trq (s : State) (q : List Telegram) : (s.setTrq q).tp.trq = q := rfl
@[simp] theorem State.setTrq_tp_hold (s : State) (q : List Telegram) : (s.setTrq q).tp.hold = holdLevel q.length s.tp.mcq.length s.tp.hold := rfl

/-! ### setMcq -/

@[simp] theorem State.setMcq_fp (s : State) (q : List Telegram) : (s.setMcq q).fp = s.fp := rfl
@[simp] theorem State.setMcq_flc (s : State) (q : List Telegram) : (s.setMcq q).flc = s.flc := rfl
@[simp] theorem State.setMcq_dc (s : State) (q : List Telegram) : (s.setMcq q).dc = s.dc := rfl
@[simp] theorem State.setMcq_uc (s : State) (q : List Telegram) : (s.setMcq q).uc = s.uc := rfl
@[simp] theorem State.setMcq_fsq (s : State) (q : List Telegram) : (s.setMcq q).fsq = s.fsq := rfl
@[simp] theorem State.setMcq_ab (s : State) (q : List Telegram) : (s.setMcq q).ab = s.ab := rfl
@[simp] theorem State.setMcq_mb (s : State) (q : List Telegram) : (s.setMcq q).mb = s.mb := rfl
@[simp] theorem State.setMcq_ts (s : State) (q : List Telegram) : (s.setMcq q).ts = s.ts := rfl
@[simp] theorem State.setMcq_la (s : State) (q : List Telegram) : (s.setMcq q).la = s.la := rfl
@[simp] theorem State.setMcq_ss (s : State) (q : List Telegram) : (s.setMcq q).ss = s.ss := rfl
@[simp] theorem State.setMcq_am (s : State) (q : List Telegram) : (s.setMcq q).am = s.am := rfl
@[simp] theorem State.setMcq_mu (s : State) (q : List Telegram) : (s.setMcq q).mu = s.mu := rfl
@[simp] theorem State.setMcq_counters (s : State) (q : List Telegram) : (s.setMcq q).counters = s.counters := rfl
@[simp] theorem State.setMcq_config (s : State) (q : List Telegram) : (s.setMcq q).config = s.config := rfl
@[simp] theorem State.setMcq_pending (s : State) (q : List Telegram) : (s.setMcq q).pending = s.pending := rfl
@[simp] theorem State.setMcq_tp_ownAddress (s : State) (q : List Telegram) : (s.setMcq q).tp.ownAddress = s.tp.ownAddress := rfl
@[simp] theorem State.setMcq_tp_framer (s : State) (q : List Telegram) : (s.setMcq q).tp.framer = s.tp.framer := rfl
@[simp] theorem State.setMcq_tp_trq (s : State) (q : List Telegram) : (s.setMcq q).tp.trq = s.tp.trq := rfl
@[simp] theorem State.setMcq_tp_pause (s : State) (q : List Telegram) : (s.setMcq q).tp.pause = s.tp.pause := rfl
@[simp] theorem State.setMcq_tp_tsq (s : State) (q : List Telegram) : (s.setMcq q).tp.tsq = s.tp.tsq := rfl
@[simp] theorem State.setMcq_tp_sending (s : State) (q : List Telegram) : (s.setMcq q).tp.sending = s.tp.sending := rfl
@[simp] theorem State.setMcq_tp_headCounted (s : State) (q : List Telegram) : (s.setMcq q).tp.headCounted = s.tp.headCounted := rfl
@[simp] theorem State.setMcq_tp_line (s : State) (q : List Telegram) : (s.setMcq q).tp.line = s.tp.line := rfl
@[simp] theorem State.setMcq_tp_change (s : State) (q : List Telegram) : (s.setMcq q).tp.change = s.tp.change := rfl
@[simp] theorem State.setMcq_tp_mcq (s : State) (q : List Telegram) : (s.setMcq q).tp.mcq = q := rfl
@[simp] theorem State.setMcq_tp_hold (s : State) (q : List Telegram) : (s.setMcq q).tp.hold = holdLevel s.tp.trq.length q.length s.tp.hold := rfl

/-! ### setTsq -/

@[simp] theorem State.setTsq_fp (s : State) (q : List TsqEntry) : (s.setTsq q).fp = s.fp := rfl
@[simp] theorem State.setTsq_flc (s : State) (q : List TsqEntry) : (s.setTsq q).flc = s.flc := rfl
@[simp] theorem State.setTsq_dc (s : State) (q : List TsqEntry) : (s.setTsq q).dc = s.dc := rfl
@[simp] theorem State.setTsq_uc (s : State) (q : List TsqEntry) : (s.setTsq q).uc = s.uc := rfl
@[simp] theorem State.setTsq_fsq (s : State) (q : List TsqEntry) : (s.setTsq q).fsq = s.fsq := rfl
@[simp] theorem State.setTsq_ab (s : State) (q : List TsqEntry) : (s.setTsq q).ab = s.ab := rfl
@[simp] theorem State.setTsq_mb (s : State) (q : List TsqEntry) : (s.setTsq q).mb = s.mb := rfl
@[simp] theorem State.setTsq_ts (s : State) (q : List TsqEntry) : (s.setTsq q).ts = s.ts := rfl
@[simp] theorem State.setTsq_la (s : State) (q : List TsqEntry) : (s.setTsq q).la = s.la := rfl
@[simp] theorem State.setTsq_ss (s : State) (q : List TsqEntry) : (s.setTsq q).ss = s.ss := rfl
@[simp] theorem State.setTsq_am (s : State) (q : List TsqEntry) : (s.setTsq q).am = s.am := rfl
@[simp] theorem State.setTsq_mu (s : State) (q : List TsqEntry) : (s.setTsq q).mu = s.mu := rfl
@[simp] theorem State.setTsq_counters (s : State) (q : List TsqEntry) : (s.setTsq q).counters = s.counters := rfl
@[simp] theorem State.setTsq_config (s : State) (q : List TsqEntry) : (s.setTsq q).config = s.config := rfl
@[simp] theorem State.setTsq_pending (s : State) (q : List TsqEntry) : (s.setTsq q).pending = s.pending := rfl
@[simp] theorem State.setTsq_tp_ownAddress (s : State) (q : List TsqEntry) : (s.setTsq q).tp.ownAddress = s.tp.ownAddress := rfl
@[simp] theorem State.setTsq_tp_framer (s : State) (q : List TsqEntry) : (s.setTsq q).tp.framer = s.tp.framer := rfl
@[simp] theorem State.setTsq_tp_trq (s : State) (q : List TsqEntry) : (s.setTsq q).tp.trq = s.tp.trq := rfl
@[simp] theorem State.setTsq_tp_mcq (s : State) (q : List TsqEntry) : (s.setTsq q).tp.mcq = s.tp.mcq := rfl
@[simp] theorem State.setTsq_tp_hold (s : State) (q : List TsqEntry) : (s.setTsq q).tp.hold = s.tp.hold := rfl
@[simp] theorem State.setTsq_tp_pause (s : State) (q : List TsqEntry) : (s.setTsq q).tp.pause = s.tp.pause := rfl
@[simp] theorem State.setTsq_tp_sending (s : State) (q : List TsqEntry) : (s.setTsq q).tp.sending = s.tp.sending := rfl
@[simp] theorem State.setTsq_tp_headCounted (s : State) (q : List TsqEntry) : (s.setTsq q).tp.headCounted = s.tp.headCounted := rfl
@[simp] theorem State.setTsq_tp_line (s : State) (q : List TsqEntry) : (s.setTsq q).tp.line = s.tp.line := rfl
@[simp] theorem State.setTsq_tp_change (s : State) (q : List TsqEntry) : (s.setTsq q).tp.change = s.tp.change := rfl
@[simp] theorem State.setTsq_tp_tsq (s : State) (q : List TsqEntry) : (s.setTsq q).tp.tsq = q := rfl

/-! ### enterTsq -/

@[simp] theorem State.enterTsq_fp (s : State) (e : TsqEntry) : (s.enterTsq e).fp = s.fp := rfl
@[simp] theorem State.enterTsq_flc (s : State) (e : TsqEntry) : (s.enterTsq e).flc = s.flc := rfl
@[simp] theorem State.enterTsq_dc (s : State) (e : TsqEntry) : (s.enterTsq e).dc = s.dc := rfl
@[simp] theorem State.enterTsq_uc (s : State) (e : TsqEntry) : (s.enterTsq e).uc = s.uc := rfl
@[simp] theorem State.enterTsq_fsq (s : State) (e : TsqEntry) : (s.enterTsq e).fsq = s.fsq := rfl
@[simp] theorem State.enterTsq_ab (s : State) (e : TsqEntry) : (s.enterTsq e).ab = s.ab := rfl
@[simp] theorem State.enterTsq_mb (s : State) (e : TsqEntry) : (s.enterTsq e).mb = s.mb := rfl
@[simp] theorem State.enterTsq_ts (s : State) (e : TsqEntry) : (s.enterTsq e).ts = s.ts := rfl
@[simp] theorem State.enterTsq_la (s : State) (e : TsqEntry) : (s.enterTsq e).la = s.la := rfl
@[simp] theorem State.enterTsq_ss (s : State) (e : TsqEntry) : (s.enterTsq e).ss = s.ss := rfl
@[simp] theorem State.enterTsq_am (s : State) (e : TsqEntry) : (s.enterTsq e).am = s.am := rfl
@[simp] theorem State.enterTsq_mu (s : State) (e : TsqEntry) : (s.enterTsq e).mu = s.mu := rfl
@[simp] theorem State.enterTsq_counters (s : State) (e : TsqEntry) : (s.enterTsq e).counters = s.counters := rfl
@[simp] theorem State.enterTsq_config (s : State) (e : TsqEntry) : (s.enterTsq e).config = s.config := rfl
@[simp] theorem State.enterTsq_pending (s : State) (e : TsqEntry) : (s.enterTsq e).pending = s.pending := rfl
@[simp] theorem State.enterTsq_tp_ownAddress (s : State) (e : TsqEntry) : (s.enterTsq e).tp.ownAddress = s.tp.ownAddress := rfl
@[simp] theorem State.enterTsq_tp_framer (s : State) (e : TsqEntry) : (s.enterTsq e).tp.framer = s.tp.framer := rfl
@[simp] theorem State.enterTsq_tp_trq (s : State) (e : TsqEntry) : (s.enterTsq e).tp.trq = s.tp.trq := rfl
@[simp] theorem State.enterTsq_tp_mcq (s : State) (e : TsqEntry) : (s.enterTsq e).tp.mcq = s.tp.mcq := rfl
@[simp] theorem State.enterTsq_tp_hold (s : State) (e : TsqEntry) : (s.enterTsq e).tp.hold = s.tp.hold := rfl
@[simp] theorem State.enterTsq_tp_pause (s : State) (e : TsqEntry) : (s.enterTsq e).tp.pause = s.tp.pause := rfl
@[simp] theorem State.enterTsq_tp_sending (s : State) (e : TsqEntry) : (s.enterTsq e).tp.sending = s.tp.sending := rfl
@[simp] theorem State.enterTsq_tp_headCounted (s : State) (e : TsqEntry) : (s.enterTsq e).tp.headCounted = s.tp.headCounted := rfl
@[simp] theorem State.enterTsq_tp_line (s : State) (e : TsqEntry) : (s.enterTsq e).tp.line = s.tp.line := rfl
@[simp] theorem State.enterTsq_tp_change (s : State) (e : TsqEntry) : (s.enterTsq e).tp.change = s.tp.change := rfl
@[simp] theorem State.enterTsq_tp_tsq (s : State) (e : TsqEntry) : (s.enterTsq e).tp.tsq = s.tp.tsq ++ [e] := rfl

/-! ### takeCommand -/

@[simp] theorem State.takeCommand_fp (s : State) (rest : List Telegram) : (s.takeCommand rest).fp = s.fp := rfl
@[simp] theorem State.takeCommand_flc (s : State) (rest : List Telegram) : (s.takeCommand rest).flc = s.flc := rfl
@[simp] theorem State.takeCommand_dc (s : State) (rest : List Telegram) : (s.takeCommand rest).dc = s.dc := rfl
@[simp] theorem State.takeCommand_uc (s : State) (rest : List Telegram) : (s.takeCommand rest).uc = s.uc := rfl
@[simp] theorem State.takeCommand_fsq (s : State) (rest : List Telegram) : (s.takeCommand rest).fsq = s.fsq := rfl
@[simp] theorem State.takeCommand_ab (s : State) (rest : List Telegram) : (s.takeCommand rest).ab = s.ab := rfl
@[simp] theorem State.takeCommand_mb (s : State) (rest : List Telegram) : (s.takeCommand rest).mb = s.mb := rfl
@[simp] theorem State.takeCommand_ts (s : State) (rest : List Telegram) : (s.takeCommand rest).ts = s.ts := rfl
@[simp] theorem State.takeCommand_la (s : State) (rest : List Telegram) : (s.takeCommand rest).la = s.la := rfl
@[simp] theorem State.takeCommand_ss (s : State) (rest : List Telegram) : (s.takeCommand rest).ss = s.ss := rfl
@[simp] theorem State.takeCommand_am (s : State) (rest : List Telegram) : (s.takeCommand rest).am = s.am := rfl
@[simp] theorem State.takeCommand_counters (s : State) (rest : List Telegram) : (s.takeCommand rest).counters = s.counters := rfl
@[simp] theorem State.takeCommand_config (s : State) (rest : List Telegram) : (s.takeCommand rest).config = s.config := rfl
@[simp] theorem State.takeCommand_pending (s : State) (rest : List Telegram) : (s.takeCommand rest).pending = s.pending := rfl
@[simp] theorem State.takeCommand_tp_ownAddress (s : State) (rest : List Telegram) : (s.takeCommand rest).tp.ownAddress = s.tp.ownAddress := rfl
@[simp] theorem State.takeCommand_tp_framer (s : State) (rest : List Telegram) : (s.takeCommand rest).tp.framer = s.tp.framer := rfl
@[simp] theorem State.takeCommand_tp_trq (s : State) (rest : List Telegram) : (s.takeCommand rest).tp.trq = s.tp.trq := rfl
@[simp] theorem State.takeCommand_tp_pause (s : State) (rest : List Telegram) : (s.takeCommand rest).tp.pause = s.tp.pause := rfl
@[simp] theorem State.takeCommand_tp_tsq (s : State) (rest : List Telegram) : (s.takeCommand rest).tp.tsq = s.tp.tsq := rfl
@[simp] theorem State.takeCommand_tp_sending (s : State) (rest : List Telegram) : (s.takeCommand rest).tp.sending = s.tp.sending := rfl
@[simp] theorem State.takeCommand_tp_headCounted (s : State) (rest : List Telegram) : (s.takeCommand rest).tp.headCounted = s.tp.headCounted := rfl
@[simp] theorem State.takeCommand_tp_line (s : State) (rest : List Telegram) : (s.takeCommand rest).tp.line = s.tp.line := rfl
@[simp] theorem State.takeCommand_tp_change (s : State) (rest : List Telegram) : (s.takeCommand rest).tp.change = s.tp.change := rfl
@[simp] theorem State.takeCommand_tp_mcq (s : State) (rest : List Telegram) : (s.takeCommand rest).tp.mcq = rest := rfl
@[simp] theorem State.takeCommand_tp_hold (s : State) (rest : List Telegram) : (s.takeCommand rest).tp.hold = holdLevel s.tp.trq.length rest.length s.tp.hold := rfl
@[simp] theorem State.takeCommand_mu (s : State) (rest : List Telegram) : (s.takeCommand rest).mu = .executing := rfl

/-! ### setSweep -/

@[simp] theorem State.setSweep_tp (s : State) (k : SweepId) (c : Sweep) : (s.setSweep k c).tp = s.tp := rfl
@[simp] theorem State.setSweep_fp (s : State) (k : SweepId) (c : Sweep) : (s.setSweep k c).fp = s.fp := rfl
@[simp] theorem State.setSweep_flc (s : State) (k : SweepId) (c : Sweep) : (s.setSweep k c).flc = s.flc := rfl
@[simp] theorem State.setSweep_dc (s : State) (k : SweepId) (c : Sweep) : (s.setSweep k c).dc = s.dc := rfl
@[simp] theorem State.setSweep_uc (s : State) (k : SweepId) (c : Sweep) : (s.setSweep k c).uc = s.uc := rfl
@[simp] theorem State.setSweep_fsq (s : State) (k : SweepId) (c : Sweep) : (s.setSweep k c).fsq = s.fsq := rfl
@[simp] theorem State.setSweep_ab (s : State) (k : SweepId) (c : Sweep) : (s.setSweep k c).ab = s.ab := rfl
@[simp] theorem State.setSweep_mb (s : State) (k : SweepId) (c : Sweep) : (s.setSweep k c).mb = s.mb := rfl
@[simp] theorem State.setSweep_ts (s : State) (k : SweepId) (c : Sweep) : (s.setSweep k c).ts = s.ts := rfl
@[simp] theorem State.setSweep_la (s : State) (k : SweepId) (c : Sweep) : (s.setSweep k c).la = s.la := rfl
@[simp] theorem State.setSweep_am (s : State) (k : SweepId) (c : Sweep) : (s.setSweep k c).am = s.am := rfl
@[simp] theorem State.setSweep_mu (s : State) (k : SweepId) (c : Sweep) : (s.setSweep k c).mu = s.mu := rfl
@[simp] theorem State.setSweep_counters (s : State) (k : SweepId) (c : Sweep) : (s.setSweep k c).counters = s.counters := rfl
@[simp] theorem State.setSweep_config (s : State) (k : SweepId) (c : Sweep) : (s.setSweep k c).config = s.config := rfl
@[simp] theorem State.setSweep_pending (s : State) (k : SweepId) (c : Sweep) : (s.setSweep k c).pending = s.pending := rfl
@[simp] theorem State.setSweep_ss (s : State) (k : SweepId) (c : Sweep) : (s.setSweep k c).ss = s.ss.set k c := rfl

/-! ### setClassifier -/

@[simp] theorem State.setClassifier_tp (s : State) (d : Direction) (c : Classifier) : (s.setClassifier d c).tp = s.tp := by cases d <;> rfl
@[simp] theorem State.setClassifier_fp (s : State) (d : Direction) (c : Classifier) : (s.setClassifier d c).fp = s.fp := by cases d <;> rfl
@[simp] theorem State.setClassifier_flc (s : State) (d : Direction) (c : Classifier) : (s.setClassifier d c).flc = s.flc := by cases d <;> rfl
@[simp] theorem State.setClassifier_fsq (s : State) (d : Direction) (c : Classifier) : (s.setClassifier d c).fsq = s.fsq := by cases d <;> rfl
@[simp] theorem State.setClassifier_ab (s : State) (d : Direction) (c : Classifier) : (s.setClassifier d c).ab = s.ab := by cases d <;> rfl
@[simp] theorem State.setClassifier_mb (s : State) (d : Direction) (c : Classifier) : (s.setClassifier d c).mb = s.mb := by cases d <;> rfl
@[simp] theorem State.setClassifier_ts (s : State) (d : Direction) (c : Classifier) : (s.setClassifier d c).ts = s.ts := by cases d <;> rfl
@[simp] theorem State.setClassifier_la (s : State) (d : Direction) (c : Classifier) : (s.setClassifier d c).la = s.la := by cases d <;> rfl
@[simp] theorem State.setClassifier_ss (s : State) (d : Direction) (c : Classifier) : (s.setClassifier d c).ss = s.ss := by cases d <;> rfl
@[simp] theorem State.setClassifier_am (s : State) (d : Direction) (c : Classifier) : (s.setClassifier d c).am = s.am := by cases d <;> rfl
@[simp] theorem State.setClassifier_mu (s : State) (d : Direction) (c : Classifier) : (s.setClassifier d c).mu = s.mu := by cases d <;> rfl
@[simp] theorem State.setClassifier_counters (s : State) (d : Direction) (c : Classifier) : (s.setClassifier d c).counters = s.counters := by cases d <;> rfl
@[simp] theorem State.setClassifier_config (s : State) (d : Direction) (c : Classifier) : (s.setClassifier d c).config = s.config := by cases d <;> rfl
@[simp] theorem State.setClassifier_pending (s : State) (d : Direction) (c : Classifier) : (s.setClassifier d c).pending = s.pending := by cases d <;> rfl
@[simp] theorem State.setClassifier_dc_downstream (s : State) (c : Classifier) : (s.setClassifier .downstream c).dc = c := rfl
@[simp] theorem State.setClassifier_uc_downstream (s : State) (c : Classifier) : (s.setClassifier .downstream c).uc = s.uc := rfl
@[simp] theorem State.setClassifier_dc_upstream (s : State) (c : Classifier) : (s.setClassifier .upstream c).dc = s.dc := rfl
@[simp] theorem State.setClassifier_uc_upstream (s : State) (c : Classifier) : (s.setClassifier .upstream c).uc = c := rfl
@[simp] theorem State.classifier_setClassifier (s : State) (d : Direction) (c : Classifier) : (s.setClassifier d c).classifier d = c := by cases d <;> rfl

/-! ### checkDrain: the Table Store's state alone may change -/

@[simp] theorem State.checkDrain_tp (s : State) : s.checkDrain.tp = s.tp := by unfold State.checkDrain; split <;> rfl
@[simp] theorem State.checkDrain_fp (s : State) : s.checkDrain.fp = s.fp := by unfold State.checkDrain; split <;> rfl
@[simp] theorem State.checkDrain_flc (s : State) : s.checkDrain.flc = s.flc := by unfold State.checkDrain; split <;> rfl
@[simp] theorem State.checkDrain_dc (s : State) : s.checkDrain.dc = s.dc := by unfold State.checkDrain; split <;> rfl
@[simp] theorem State.checkDrain_uc (s : State) : s.checkDrain.uc = s.uc := by unfold State.checkDrain; split <;> rfl
@[simp] theorem State.checkDrain_fsq (s : State) : s.checkDrain.fsq = s.fsq := by unfold State.checkDrain; split <;> rfl
@[simp] theorem State.checkDrain_ab (s : State) : s.checkDrain.ab = s.ab := by unfold State.checkDrain; split <;> rfl
@[simp] theorem State.checkDrain_mb (s : State) : s.checkDrain.mb = s.mb := by unfold State.checkDrain; split <;> rfl
@[simp] theorem State.checkDrain_la (s : State) : s.checkDrain.la = s.la := by unfold State.checkDrain; split <;> rfl
@[simp] theorem State.checkDrain_ss (s : State) : s.checkDrain.ss = s.ss := by unfold State.checkDrain; split <;> rfl
@[simp] theorem State.checkDrain_am (s : State) : s.checkDrain.am = s.am := by unfold State.checkDrain; split <;> rfl
@[simp] theorem State.checkDrain_mu (s : State) : s.checkDrain.mu = s.mu := by unfold State.checkDrain; split <;> rfl
@[simp] theorem State.checkDrain_counters (s : State) : s.checkDrain.counters = s.counters := by unfold State.checkDrain; split <;> rfl
@[simp] theorem State.checkDrain_config (s : State) : s.checkDrain.config = s.config := by unfold State.checkDrain; split <;> rfl
@[simp] theorem State.checkDrain_pending (s : State) : s.checkDrain.pending = s.pending := by unfold State.checkDrain; split <;> rfl
@[simp] theorem State.checkDrain_ts_set0 (s : State) : s.checkDrain.ts.set0 = s.ts.set0 := by unfold State.checkDrain; split <;> rfl
@[simp] theorem State.checkDrain_ts_set1 (s : State) : s.checkDrain.ts.set1 = s.ts.set1 := by unfold State.checkDrain; split <;> rfl
@[simp] theorem State.checkDrain_ts_live (s : State) : s.checkDrain.ts.live = s.ts.live := by unfold State.checkDrain; split <;> rfl
@[simp] theorem State.checkDrain_ts_publication (s : State) : s.checkDrain.ts.publication = s.ts.publication := by unfold State.checkDrain; split <;> rfl
@[simp] theorem State.checkDrain_ts_edit (s : State) : s.checkDrain.ts.edit = s.ts.edit := by unfold State.checkDrain; split <;> rfl
@[simp] theorem State.checkDrain_isHeld (s : State) (i : SetId) : s.checkDrain.isHeld i = s.isHeld i := by unfold State.isHeld; simp

theorem State.checkDrain_of_drainHeld {s : State} (h : s.drainHeld) : s.checkDrain = s := by
  unfold State.checkDrain
  split
  · rename_i c; have := h c.1; simp [c.2] at this
  · rfl


/-! ### withEdit -/

@[simp] theorem State.withEdit_tp (s : State) (t : TableSet) : (s.withEdit t).tp = s.tp := rfl
@[simp] theorem State.withEdit_fp (s : State) (t : TableSet) : (s.withEdit t).fp = s.fp := rfl
@[simp] theorem State.withEdit_flc (s : State) (t : TableSet) : (s.withEdit t).flc = s.flc := rfl
@[simp] theorem State.withEdit_dc (s : State) (t : TableSet) : (s.withEdit t).dc = s.dc := rfl
@[simp] theorem State.withEdit_uc (s : State) (t : TableSet) : (s.withEdit t).uc = s.uc := rfl
@[simp] theorem State.withEdit_fsq (s : State) (t : TableSet) : (s.withEdit t).fsq = s.fsq := rfl
@[simp] theorem State.withEdit_ab (s : State) (t : TableSet) : (s.withEdit t).ab = s.ab := rfl
@[simp] theorem State.withEdit_mb (s : State) (t : TableSet) : (s.withEdit t).mb = s.mb := rfl
@[simp] theorem State.withEdit_la (s : State) (t : TableSet) : (s.withEdit t).la = s.la := rfl
@[simp] theorem State.withEdit_ss (s : State) (t : TableSet) : (s.withEdit t).ss = s.ss := rfl
@[simp] theorem State.withEdit_am (s : State) (t : TableSet) : (s.withEdit t).am = s.am := rfl
@[simp] theorem State.withEdit_mu (s : State) (t : TableSet) : (s.withEdit t).mu = s.mu := rfl
@[simp] theorem State.withEdit_counters (s : State) (t : TableSet) : (s.withEdit t).counters = s.counters := rfl
@[simp] theorem State.withEdit_config (s : State) (t : TableSet) : (s.withEdit t).config = s.config := rfl
@[simp] theorem State.withEdit_pending (s : State) (t : TableSet) : (s.withEdit t).pending = s.pending := rfl

/-! ### startTransaction -/

@[simp] theorem State.startTransaction_tp (s : State) (o : Owner) (n : Station) (f : Byte) (p : List Byte)
    (i : Option (Nat × SetId)) : (s.startTransaction o n f p i).tp = s.tp := rfl
@[simp] theorem State.startTransaction_dc (s : State) (o : Owner) (n : Station) (f : Byte) (p : List Byte)
    (i : Option (Nat × SetId)) : (s.startTransaction o n f p i).dc = s.dc := rfl
@[simp] theorem State.startTransaction_uc (s : State) (o : Owner) (n : Station) (f : Byte) (p : List Byte)
    (i : Option (Nat × SetId)) : (s.startTransaction o n f p i).uc = s.uc := rfl
@[simp] theorem State.startTransaction_fsq (s : State) (o : Owner) (n : Station) (f : Byte) (p : List Byte)
    (i : Option (Nat × SetId)) : (s.startTransaction o n f p i).fsq = s.fsq := rfl
@[simp] theorem State.startTransaction_ab (s : State) (o : Owner) (n : Station) (f : Byte) (p : List Byte)
    (i : Option (Nat × SetId)) : (s.startTransaction o n f p i).ab = s.ab := rfl
@[simp] theorem State.startTransaction_mb (s : State) (o : Owner) (n : Station) (f : Byte) (p : List Byte)
    (i : Option (Nat × SetId)) : (s.startTransaction o n f p i).mb = s.mb := rfl
@[simp] theorem State.startTransaction_ts (s : State) (o : Owner) (n : Station) (f : Byte) (p : List Byte)
    (i : Option (Nat × SetId)) : (s.startTransaction o n f p i).ts = s.ts := rfl
@[simp] theorem State.startTransaction_la (s : State) (o : Owner) (n : Station) (f : Byte) (p : List Byte)
    (i : Option (Nat × SetId)) : (s.startTransaction o n f p i).la = s.la := rfl
@[simp] theorem State.startTransaction_ss (s : State) (o : Owner) (n : Station) (f : Byte) (p : List Byte)
    (i : Option (Nat × SetId)) : (s.startTransaction o n f p i).ss = s.ss := rfl
@[simp] theorem State.startTransaction_am (s : State) (o : Owner) (n : Station) (f : Byte) (p : List Byte)
    (i : Option (Nat × SetId)) : (s.startTransaction o n f p i).am = s.am := rfl
@[simp] theorem State.startTransaction_mu (s : State) (o : Owner) (n : Station) (f : Byte) (p : List Byte)
    (i : Option (Nat × SetId)) : (s.startTransaction o n f p i).mu = s.mu := rfl
@[simp] theorem State.startTransaction_counters (s : State) (o : Owner) (n : Station) (f : Byte) (p : List Byte)
    (i : Option (Nat × SetId)) : (s.startTransaction o n f p i).counters = s.counters := rfl
@[simp] theorem State.startTransaction_config (s : State) (o : Owner) (n : Station) (f : Byte) (p : List Byte)
    (i : Option (Nat × SetId)) : (s.startTransaction o n f p i).config = s.config := rfl
@[simp] theorem State.startTransaction_pending (s : State) (o : Owner) (n : Station) (f : Byte) (p : List Byte)
    (i : Option (Nat × SetId)) : (s.startTransaction o n f p i).pending = s.pending := rfl

end Sys2Proof.Machine
end

