-- ==== Sys2Proof/Laws/Trunk.lean ====
section
/-! SUPPORT. The trunk side of an act: who waits, when admission, a line change and the start of the head of TSQ do nothing,
and what the response of a command comes to. -/

namespace Sys2Proof.Machine

theorem TrunkPort.tsqHasRoom_iff (p : TrunkPort) : p.tsqHasRoom = true ↔ p.tsq.length < 16 := by
  unfold TrunkPort.tsqHasRoom Config.tsqCapacity; exact decide_eq_true_iff

/-- Who waits, and with what, is read off the Management Unit, the classifiers and the notice slots alone. -/
theorem State.firstWaiting_congr {s t : State} (hm : t.mu = s.mu) (hu : t.uc = s.uc) (hd : t.dc = s.dc)
    (hl : t.la.notice = s.la.notice) (ha : t.am = s.am) (hs : ∀ k, (t.ss.get k).notice = (s.ss.get k).notice) :
    t.firstWaiting = s.firstWaiting := by
  unfold State.firstWaiting
  congr 1
  funext p
  cases p <;> simp [State.waitsWith, hm, hu, hd, hl, ha, hs]

theorem State.serve_of_noneWaiting {s : State} (h : s.firstWaiting = none) : s.serve = s := by
  unfold State.serve Config.tsqCapacity
  rw [serveUpTo]
  split
  · rw [h]
  · rfl

theorem State.serve_of_full {s : State} (h : 16 ≤ s.tp.tsq.length) : s.serve = s := by
  unfold State.serve Config.tsqCapacity
  rw [serveUpTo, if_neg]
  rw [TrunkPort.tsqHasRoom_iff]; omega

/-- Admission with a free slot gives it to the first that waits and goes on. -/
theorem serveUpTo_of_waiting {n : Nat} {s : State} {p : Producer} {e : TsqEntry} (hr : s.tp.tsq.length < 16)
    (h : s.firstWaiting = some (p, e)) : serveUpTo (n + 1) s = serveUpTo n (s.giveSlot p e) := by
  rw [serveUpTo, if_pos ((TrunkPort.tsqHasRoom_iff _).2 hr), h]

theorem serveUpTo_of_full {n : Nat} {s : State} (h : 16 ≤ s.tp.tsq.length) : serveUpTo n s = s := by
  cases n with
  | zero => rfl
  | succ n =>
    rw [serveUpTo, if_neg]
    rw [TrunkPort.tsqHasRoom_iff]; omega

theorem serveUpTo_of_noneWaiting {n : Nat} {s : State} (h : s.firstWaiting = none) : serveUpTo n s = s := by
  cases n with
  | zero => rfl
  | succ n =>
    rw [serveUpTo]
    split
    · rw [h]
    · rfl

theorem State.takeTrunkChange_of_none {s : State} (h : s.tp.change = none) : s.takeTrunkChange = s := by
  unfold State.takeTrunkChange; rw [h]

theorem State.takeTrunkChange_of_sending {s : State} (h : s.tp.sending ≠ none) : s.takeTrunkChange = s := by
  unfold State.takeTrunkChange
  split
  · rw [if_neg (by simp [h])]
  · rfl

theorem State.startHead_of_sending {s : State} (h : s.tp.sending ≠ none) : s.startHead = s := by
  unfold State.startHead
  split
  · rename_i e _; exact absurd e h
  · rfl

theorem State.startHead_of_empty {s : State} (h : s.tp.tsq = []) : s.startHead = s := by
  unfold State.startHead
  split
  · rename_i e; rw [h] at e; cases e
  · rfl

theorem State.serviceTrunk_of_sending {s : State} (h : s.tp.sending ≠ none) (hw : s.firstWaiting = none) :
    s.serviceTrunk = s := by
  unfold State.serviceTrunk
  rw [State.serve_of_noneWaiting hw, State.takeTrunkChange_of_sending h, State.startHead_of_sending h]

theorem State.takeTrunkChange_of_unsent {s : State} (h : s.tp.blocked = false) : s.takeTrunkChange = s := by
  unfold State.takeTrunkChange
  split
  · rename_i c e
    rw [if_neg]
    rintro ⟨a, _⟩
    unfold TrunkPort.blocked at h
    rw [e] at h
    exact absurd (h.symm.trans a) (by decide)
  · rfl

/-- A start that frees the one slot of a full TSQ gives it to the first that waits, and the trunk side is done (R12, R15). -/
theorem State.serviceTrunk_of_freed {s v : State} {h e : TsqEntry} {rest : List TsqEntry} {p : Producer}
    (h1 : s.tp.sending = none) (h2 : s.tp.blocked = false) (h3 : s.tp.pause = false) (h4 : s.tp.tsq = h :: rest)
    (h5 : rest.length = 15) (h6 : s.firstWaiting = some (p, e))
    (hv : State.giveSlot
      { s with tp := { s.tp with
        sending := some ⟨s.tp.trunkBytes h, h.awaited⟩, tsq := rest, headCounted := false } } p e = v)
    (hf : 16 ≤ v.tp.tsq.length) : s.serviceTrunk = v := by
  unfold State.serviceTrunk
  rw [State.serve_of_full (by rw [h4]; simp [h5]), State.takeTrunkChange_of_unsent h2]
  unfold State.startHead
  simp only [h1, h4, h2, h3]
  rw [if_neg (by simp), if_neg (by simp)]
  unfold State.serve Config.tsqCapacity
  rw [serveUpTo_of_waiting (p := p) (e := e)]
  · simp only [TrunkPort.trunkBytes, h3] at hv ⊢
    rw [hv]
    exact serveUpTo_of_full hf
  · simp [h5]
  · exact (State.firstWaiting_congr rfl rfl rfl rfl rfl fun _ => rfl).trans h6

/-- The trunk side has nothing to do in a state where nothing is due on it. -/
theorem State.serviceTrunk_of_steady {s : State} (h : s.Steady) : s.serviceTrunk = s := by
  have hs : s.serve = s := by
    by_cases hr : s.tp.tsq.length < 16
    · exact State.serve_of_noneWaiting (h.admitted hr)
    · exact State.serve_of_full (by omega)
  have hc : s.takeTrunkChange = s := by
    unfold State.takeTrunkChange
    split
    · rename_i c e
      rw [if_neg]
      rintro ⟨a, b, c⟩
      rcases h.trunkChange _ e a with x | x
      · exact x b
      · exact x c
    · rfl
  have hh : s.startHead = s := by
    unfold State.startHead
    split
    · rename_i e1 e2
      rcases h.started e1 (by rw [e2]; simp) with x | x
      · split
        · rfl
        · rw [if_pos x.1, if_pos x.2]
      · rw [if_pos x]
    · rfl
  unfold State.serviceTrunk
  rw [hs, hc, hh]

end Sys2Proof.Machine
end

