-- ==== Sys2Proof/Laws/Manage.lean ====
section
/-! SUPPORT. What the execution of a management command comes to, by the outcome of its body. -/

namespace Sys2Proof.Machine

theorem manage_of_head {s : State} {t : Telegram} {rest : List Telegram} {isRow : Telegram → Bool} {body : Body}
    (h : s.atHead t rest) (hr : isRow t = true) :
    manage isRow body s = (runBody body t (s.takeCommand rest)).1.answer (runBody body t (s.takeCommand rest)).2 := by
  unfold manage
  rw [h.1, h.2]
  simp only [hr, if_true]

/-- A command whose body answers OK leaves the body's state and answers with its data. -/
theorem manage_ok {s : State} {t : Telegram} {rest : List Telegram} {isRow : Telegram → Bool} {body : Body}
    {data : List Byte} {u : State} {awaited : Bool} (h : s.atHead t rest) (hr : isRow t = true)
    (hb : body t.payload (s.takeCommand rest) = .ok ⟨data, u, awaited⟩) :
    manage isRow body s = u.answer ⟨t.function, 0 :: data, awaited⟩ := by
  rw [manage_of_head h hr]
  unfold runBody
  rw [hb]
  rfl

/-- A command whose body answers another result changes nothing but the queue it came from. -/
theorem manage_error {s : State} {t : Telegram} {rest : List Telegram} {isRow : Telegram → Bool} {body : Body}
    {r : Result} (h : s.atHead t rest) (hr : isRow t = true) (hb : body t.payload (s.takeCommand rest) = .error r) :
    manage isRow body s = (s.takeCommand rest).answer (bareResponse t.function r.code) := by
  rw [manage_of_head h hr]
  unfold runBody
  rw [hb]
  rfl

/-- Where the Management Unit is not IDLE the row does not happen. -/
theorem manage_of_busy {s : State} {isRow : Telegram → Bool} {body : Body} (h : s.mu ≠ .idle) :
    manage isRow body s = s := by
  unfold manage
  split
  · rename_i e _; exact absurd e h
  · rfl

/-- Where MCQ is empty the row does not happen. -/
theorem manage_of_empty {s : State} {isRow : Telegram → Bool} {body : Body} (h : s.tp.mcq = []) :
    manage isRow body s = s := by
  unfold manage
  split
  · rename_i e; rw [h] at e; cases e
  · rfl

theorem hasCode_of {t : Telegram} {code : Byte} (h : t.function = code) : hasCode code t = true := by
  unfold hasCode; rw [h]; exact beq_self_eq_true code

/-- A command of its own code whose body answers OK. -/
theorem manage_code_ok {s : State} {t : Telegram} {rest : List Telegram} {code : Byte} {body : Body} {p data : List Byte}
    {u : State} {awaited : Bool} (h : s.atHead t rest) (hf : t.function = code) (hp : t.payload = p)
    (hb : body p (s.takeCommand rest) = .ok ⟨data, u, awaited⟩) :
    manage (hasCode code) body s = u.answer ⟨code, 0 :: data, awaited⟩ := by
  subst hf hp
  exact manage_ok h (hasCode_of rfl) hb

/-- A command of its own code whose body answers another result. -/
theorem manage_code_error {s : State} {t : Telegram} {rest : List Telegram} {code : Byte} {body : Body} {p : List Byte}
    {r : Result} (h : s.atHead t rest) (hf : t.function = code) (hp : t.payload = p)
    (hb : body p (s.takeCommand rest) = .error r) :
    manage (hasCode code) body s = (s.takeCommand rest).answer (bareResponse code r.code) := by
  subst hf hp
  exact manage_error h (hasCode_of rfl) hb

theorem hasKind_of {t : Telegram} {code : Byte} {position : Nat} {kind : TableKind} {b : Byte} (hf : t.function = code)
    (hb : t.payload[position]? = some b) (hk : TableKind.ofByte b = some kind) : hasKind code position kind t = true := by
  unfold hasKind
  rw [hf, hb]
  simp [hk]

/-- TABLE_READ of the kind and the selector length of a row. -/
theorem tableRead_row {s : State} {t : Telegram} {rest : List Telegram} {kind : TableKind} {n : Nat}
    {read : TableSet → List Byte → Option (List Byte)} {set k : Byte} {sel : List Byte} (h : s.atHead t rest)
    (hf : t.function = codeTableRead) (hp : t.payload = set :: k :: sel) (hk : TableKind.ofByte k = some kind)
    (hn : sel.length = n) :
    manage (hasKind codeTableRead 1 kind) (tableReadBody kind n read) s
      = (s.takeCommand rest).answer
        (match SetId.ofByte set with
          | none => bareResponse codeTableRead 2
          | some i =>
            if i = s.ts.edit ∧ s.ts.state ≠ .editable then bareResponse codeTableRead 1
            else match read (s.ts.table i) sel with
              | none => bareResponse codeTableRead 2
              | some image => okResponse codeTableRead image) := by
  have hr : hasKind codeTableRead 1 kind t = true := hasKind_of hf (by rw [hp]; rfl) hk
  have hb : tableReadBody kind n read t.payload (s.takeCommand rest) =
      (match SetId.ofByte set with
        | none => .error .badArg
        | some i =>
          if i = s.ts.edit ∧ s.ts.state ≠ .editable then .error .busy
          else match read (s.ts.table i) sel with
            | none => .error .badArg
            | some image => done image (s.takeCommand rest)) := by
    rw [hp, tableReadBody]
    simp only [hk, hn, and_self, if_true]
    rfl
  cases hi : SetId.ofByte set with
  | none => rw [hi] at hb; rw [manage_error h hr hb, hf]; rfl
  | some i =>
    rw [hi] at hb
    by_cases hbusy : i = s.ts.edit ∧ s.ts.state ≠ .editable
    · simp only [if_pos hbusy] at hb ⊢
      rw [manage_error h hr hb, hf]; rfl
    · simp only [if_neg hbusy] at hb ⊢
      cases hx : read (s.ts.table i) sel with
      | none => rw [hx] at hb; rw [manage_error h hr hb, hf]; rfl
      | some image => rw [hx] at hb; rw [manage_ok h hr hb, hf]; rfl

/-- TABLE_WRITE of the kind and the length of a row. -/
theorem tableWrite_row {s : State} {t : Telegram} {rest : List Telegram} {kind : TableKind} {n : Nat}
    {dataBytes : List Byte → Nat} {write : TableSet → List Byte → List Byte → Option TableSet} {k : Byte}
    {sel data : List Byte} (h : s.atHead t rest) (hf : t.function = codeTableWrite) (hp : t.payload = k :: (sel ++ data))
    (hk : TableKind.ofByte k = some kind) (hn : sel.length = n) (hd : data.length = dataBytes sel) :
    manage (hasKind codeTableWrite 0 kind) (tableWriteBody kind n dataBytes write) s
      = if s.ts.state ≠ .editable then (s.takeCommand rest).answer (bareResponse codeTableWrite 1)
        else match write (s.ts.table s.ts.edit) sel data with
          | none => (s.takeCommand rest).answer (bareResponse codeTableWrite 2)
          | some T => ((s.takeCommand rest).withEdit T).answer (okResponse codeTableWrite []) := by
  have hr : hasKind codeTableWrite 0 kind t = true := hasKind_of hf (by rw [hp]; rfl) hk
  have hc : cutWrite n dataBytes (sel ++ data) = some (sel, data) := by
    subst hn
    unfold cutWrite
    simp [hd]
  have hb : tableWriteBody kind n dataBytes write t.payload (s.takeCommand rest) =
      (if s.ts.state ≠ .editable then .error .busy
        else match write (s.ts.table s.ts.edit) sel data with
          | none => .error .badArg
          | some T => done [] ((s.takeCommand rest).withEdit T)) := by
    rw [hp, tableWriteBody]
    simp only [hk, hc, if_true]
    rfl
  by_cases hbusy : s.ts.state ≠ .editable
  · rw [if_pos hbusy] at hb ⊢
    rw [manage_error h hr hb, hf]; rfl
  · rw [if_neg hbusy] at hb ⊢
    cases hx : write (s.ts.table s.ts.edit) sel data with
    | none => rw [hx] at hb; rw [manage_error h hr hb, hf]; rfl
    | some T => rw [hx] at hb; rw [manage_ok h hr hb, hf]; rfl

theorem TableKind.ofByte_of_none {k : Byte} (h : k = 0 ∨ 7 < k.toNat) : TableKind.ofByte k = none := by
  unfold TableKind.ofByte
  rcases h with rfl | h
  · rfl
  · split <;> simp_all

/-- TABLE_READ that names no kind, or ends before its kind code, is BAD_LENGTH by any row (log 9). -/
theorem tableRead_noKind {s : State} {t : Telegram} {rest : List Telegram} {kind : TableKind} {n : Nat}
    {read : TableSet → List Byte → Option (List Byte)} (h : s.atHead t rest) (hf : t.function = codeTableRead)
    (hp : t.payload.length < 2 ∨ ∃ set k sel, t.payload = set :: k :: sel ∧ (k = 0 ∨ 7 < k.toNat)) :
    manage (hasKind codeTableRead 1 kind) (tableReadBody kind n read) s
      = (s.takeCommand rest).answer (bareResponse codeTableRead 3) := by
  rw [← hf]
  refine manage_error (r := .badLength) h ?_ ?_
  · unfold hasKind
    rw [hf]
    rcases hp with hp | ⟨_, _, _, hp, hk⟩
    · rw [List.getElem?_eq_none (by omega)]; rfl
    · rw [hp]; simp [TableKind.ofByte_of_none hk, codeTableRead]
  · rcases hp with hp | ⟨_, _, _, hp, hk⟩
    · unfold tableReadBody
      split
      · rename_i e; rw [e] at hp; simp at hp
      · rfl
    · rw [hp]; unfold tableReadBody; simp [TableKind.ofByte_of_none hk]

/-- TABLE_WRITE that names no kind, or ends before its kind code, is BAD_LENGTH by any row (log 9). -/
theorem tableWrite_noKind {s : State} {t : Telegram} {rest : List Telegram} {kind : TableKind} {n : Nat}
    {dataBytes : List Byte → Nat} {write : TableSet → List Byte → List Byte → Option TableSet} (h : s.atHead t rest)
    (hf : t.function = codeTableWrite)
    (hp : t.payload = [] ∨ ∃ k body, t.payload = k :: body ∧ (k = 0 ∨ 7 < k.toNat)) :
    manage (hasKind codeTableWrite 0 kind) (tableWriteBody kind n dataBytes write) s
      = (s.takeCommand rest).answer (bareResponse codeTableWrite 3) := by
  rw [← hf]
  refine manage_error (r := .badLength) h ?_ ?_
  · unfold hasKind
    rw [hf]
    rcases hp with hp | ⟨_, _, hp, hk⟩
    · rw [hp]; rfl
    · rw [hp]; simp [TableKind.ofByte_of_none hk, codeTableWrite]
  · rcases hp with hp | ⟨_, _, hp, hk⟩
    · rw [hp]; rfl
    · rw [hp]; unfold tableWriteBody; simp [TableKind.ofByte_of_none hk]

theorem State.leavesTrunkChange_iff (s : State) (c : ConfigRecord) :
    s.leavesTrunkChange c = true ↔ s.tp.change ≠ none ∧ c.trunkSettings = s.config.trunkSettings
      ∧ Config.repeatLeavesTrunkChange = true := by
  unfold State.leavesTrunkChange
  simp [Option.isSome_iff_ne_none, and_assoc]

/-- What an accepted CONFIG_WRITE does to the part (R16, R17, R127, R174). -/
theorem State.configure_eq (s : State) (c : ConfigRecord) :
    s.configure c =
      { s with
        config := c
        la := { s.la with counter := min s.la.counter c.tenureLimit }
        tp := if s.leavesTrunkChange c then s.tp
          else { s.tp with
            change := if c.trunkSettings = s.tp.line then none else some ⟨c.trunkSettings, false⟩
            tsq := s.tp.tsq.map fun e => { e with awaited := false }
            sending := s.tp.sending.map fun x => { x with awaited := false } }
        fp := if c.fieldSettings = s.fp.line then { s.fp with change := none }
          else if s.flc.state = .idle ∧ s.fp.framer = .hunt then { s.fp with line := c.fieldSettings, change := none }
          else { s.fp with change := some c.fieldSettings } } := by
  unfold State.configure State.takeFieldChange FieldPort.offerChange
  by_cases q : c.fieldSettings = s.fp.line
  · rw [if_pos q, if_pos q]; rfl
  · rw [if_neg q, if_neg q]
    by_cases q2 : s.flc.state = .idle ∧ s.fp.framer = .hunt
    · rw [if_pos q2]
      dsimp only
      rw [if_pos (by exact q2)]; rfl
    · rw [if_neg q2]
      dsimp only
      rw [if_neg (by exact q2)]; rfl

/-! ## The response -/

theorem State.firstWaiting_of_executing {s : State} (hm : s.mu = .executing) (hw : s.firstWaiting = none)
    (p : TrunkPort) : ({ s with mu := .idle, tp := p } : State).firstWaiting = none := by
  refine Eq.trans ?_ hw
  unfold State.firstWaiting producerOrder
  simp only [List.findSome?, State.waitsWith, hm]

/-- With a free slot and no other producer waiting, the response is admitted at once. -/
theorem State.respond_of_room {s : State} {e : TsqEntry} (hm : s.mu = .executing) (hw : s.firstWaiting = none)
    (hr : s.tp.tsq.length < 16) :
    s.respond e = { s with mu := .idle, tp := { s.tp with tsq := s.tp.tsq ++ [e] } } := by
  unfold State.respond
  rw [State.serve_of_noneWaiting hw]
  unfold State.serve Config.tsqCapacity
  rw [serveUpTo_of_waiting (s := { s with mu := ManagementUnit.waiting e }) (p := .mu) (e := e) hr rfl]
  exact serveUpTo_of_noneWaiting (State.firstWaiting_of_executing hm hw _)

/-- With TSQ full, the Management Unit waits with the response. -/
theorem State.respond_of_full {s : State} {e : TsqEntry} (hf : 16 ≤ s.tp.tsq.length) :
    s.respond e = { s with mu := .waiting e } := by
  unfold State.respond
  rw [State.serve_of_full hf, State.serve_of_full]
  exact hf

end Sys2Proof.Machine
end

