-- ==== Sys2Proof/Laws/Keeps.lean ====
section
/-! SUPPORT. What the shared operations keep. For the delivery of a unit, admission to TSQ, the trunk side, the response of a
command and a command row: a property that their primitive acts keep is kept by the whole; and from these the frames, each
field that an operation cannot touch. -/

namespace Sys2Proof.Machine

/-! ## Induction over the acts of an operation -/

/-- A unit that delivers goes by placed, lost and queued outputs and reports, each keeping `P`, to its end or a stall, which
give `Q`. -/
theorem deliver_keeps {P Q : State → Prop} {d : Direction} {u : UnitOfWork}
    (hEnd : ∀ s, P s → Q (s.endUnit d))
    (hStall : ∀ s outputs timer, P s → Q (s.stall d u outputs timer))
    (hPlace : ∀ s c, s.mb.entries.length < 8 → P s → P { s with mb := s.mb.place c })
    (hLost : ∀ s, P s → P (s.count .mailboxLost))
    (hField : ∀ s e, s.fsq.length < 16 → P s → P { s with fsq := s.fsq ++ [e] })
    (hTrunk : ∀ s e, s.tp.tsq.length < 16 → P s → P (s.enterTsq e))
    (hReport : ∀ s k silent verdict, P s → P (s.report k silent verdict)) :
    ∀ outputs s, P s → Q (deliver d u outputs s)
  | [], s, h => hEnd s h
  | .mailbox c :: rest, s, h => by
    rw [deliver]
    split
    · rename_i hr
      exact deliver_keeps hEnd hStall hPlace hLost hField hTrunk hReport rest _
        (hPlace s c (of_decide_eq_true hr) h)
    · split
      · exact deliver_keeps hEnd hStall hPlace hLost hField hTrunk hReport rest _ (hLost s h)
      · exact hStall s _ _ h
  | .fieldQueue e :: rest, s, h => by
    rw [deliver]
    split
    · rename_i hr
      exact deliver_keeps hEnd hStall hPlace hLost hField hTrunk hReport rest _ (hField s e hr h)
    · exact hStall s _ _ h
  | .trunkQueue e :: rest, s, h => by
    rw [deliver]
    split
    · rename_i hr
      exact deliver_keeps hEnd hStall hPlace hLost hField hTrunk hReport rest _
        (hTrunk s e ((TrunkPort.tsqHasRoom_iff _).1 hr.1) h)
    · exact hStall s _ _ h
  | .report k silent verdict :: rest, s, h => by
    rw [deliver]
    exact deliver_keeps hEnd hStall hPlace hLost hField hTrunk hReport rest _ (hReport s k silent verdict h)

/-- Admission is a run of slots given, each to the first that waits. -/
theorem serveUpTo_keeps {P : State → Prop}
    (hGive : ∀ s p e, s.tp.tsq.length < 16 → s.firstWaiting = some (p, e) → P s → P (s.giveSlot p e)) :
    ∀ n s, P s → P (serveUpTo n s)
  | 0, _, h => h
  | n + 1, s, h => by
    rw [serveUpTo]
    split
    · rename_i hr
      split
      · rename_i p e hw
        exact serveUpTo_keeps hGive n _ (hGive s p e ((TrunkPort.tsqHasRoom_iff _).1 hr) hw h)
      · exact h
    · exact h

theorem State.serve_keeps {P : State → Prop} {s : State}
    (hGive : ∀ s p e, s.tp.tsq.length < 16 → s.firstWaiting = some (p, e) → P s → P (s.giveSlot p e)) (h : P s) :
    P s.serve := serveUpTo_keeps hGive _ s h

theorem State.takeTrunkChange_keeps {P : State → Prop} {s : State}
    (hLine : ∀ s l, P s → P { s with tp := { s.tp with line := l, change := none } }) (h : P s) :
    P s.takeTrunkChange := by
  unfold State.takeTrunkChange
  split
  · split
    · exact hLine s _ h
    · exact h
  · exact h

/-- The trunk side at the end of an act: slots given, a line change taken, the head counted or started. -/
theorem State.serviceTrunk_keeps {P : State → Prop} {s : State}
    (hGive : ∀ s p e, s.tp.tsq.length < 16 → s.firstWaiting = some (p, e) → P s → P (s.giveSlot p e))
    (hLine : ∀ s l, P s → P { s with tp := { s.tp with line := l, change := none } })
    (hCount : ∀ s, P s → P (State.count { s with tp := { s.tp with headCounted := true } } .trunkPauseWaits))
    (hStart : ∀ s e rest x, s.tp.tsq = e :: rest → P s →
      P { s with tp := { s.tp with sending := some x, tsq := rest, headCounted := false } })
    (h : P s) : P s.serviceTrunk := by
  have h2 := State.takeTrunkChange_keeps hLine (State.serve_keeps hGive h)
  show P s.serve.takeTrunkChange.startHead
  unfold State.startHead
  split
  · rename_i e rest _ ht
    split
    · exact h2
    · split
      · split
        · exact h2
        · exact hCount _ h2
      · exact State.serve_keeps hGive (hStart _ e rest _ ht h2)
  · exact h2

/-- A response: the Management Unit waits with it, and the trunk side goes on. -/
theorem State.answer_keeps {P : State → Prop} {s : State} {e : TsqEntry}
    (hGive : ∀ s p e, s.tp.tsq.length < 16 → s.firstWaiting = some (p, e) → P s → P (s.giveSlot p e))
    (hLine : ∀ s l, P s → P { s with tp := { s.tp with line := l, change := none } })
    (hCount : ∀ s, P s → P (State.count { s with tp := { s.tp with headCounted := true } } .trunkPauseWaits))
    (hStart : ∀ s e rest x, s.tp.tsq = e :: rest → P s →
      P { s with tp := { s.tp with sending := some x, tsq := rest, headCounted := false } })
    (hWait : ∀ s, P s → P { s with mu := .waiting e })
    (h : P s) : P (s.answer e) :=
  State.serviceTrunk_keeps hGive hLine hCount hStart (State.serve_keeps hGive (hWait _ (State.serve_keeps hGive h)))

/-- A command row: either it does not happen, or its body ran on the head of MCQ and was answered. -/
theorem manage_cases {Q : State → Prop} {isRow : Telegram → Bool} {body : Body} {s : State}
    (hNot : Q s)
    (hErr : ∀ t rest r, s.atHead t rest → isRow t = true → body t.payload (s.takeCommand rest) = .error r →
      Q ((s.takeCommand rest).answer ⟨t.function, [r.code], false⟩))
    (hOk : ∀ t rest r, s.atHead t rest → isRow t = true → body t.payload (s.takeCommand rest) = .ok r →
      Q (r.state.answer ⟨t.function, 0 :: r.data, r.awaited⟩)) :
    Q (manage isRow body s) := by
  unfold manage
  split
  · rename_i t rest hm hq
    split
    · rename_i hr
      have ha : s.atHead t rest := ⟨hm, hq⟩
      unfold runBody
      split
      · rename_i r hb
        exact hOk t rest r ha hr hb
      · rename_i r hb
        exact hErr t rest r ha hr hb
    · exact hNot
  · exact hNot

/-! ## Frames -/

/-- What the delivery of a unit may touch, as one equation. -/
def State.UnitFrame (s t : State) : Prop :=
  t = { s with
    tp := { s.tp with tsq := t.tp.tsq }, dc := t.dc, uc := t.uc, fsq := t.fsq, mb := t.mb
    ts := { s.ts with state := t.ts.state }, ss := t.ss, counters := t.counters }

theorem State.UnitFrame.refl (s : State) : s.UnitFrame s := rfl

theorem State.UnitFrame.trans {s t u : State} (h : s.UnitFrame t) (h' : t.UnitFrame u) : s.UnitFrame u := by
  unfold State.UnitFrame at *
  rw [h', h]

theorem State.checkDrain_frame (s : State) : s.UnitFrame s.checkDrain := by
  by_cases h : s.ts.state = .draining ∧ s.isHeld s.ts.edit = false
  · have e : s.checkDrain = { s with ts := { s.ts with state := .copying } } := if_pos h
    rw [e]; rfl
  · have e : s.checkDrain = s := if_neg h
    rw [e]; rfl

theorem State.setClassifier_frame (s : State) (d : Direction) (c : Classifier) : s.UnitFrame (s.setClassifier d c) := by
  cases d <;> rfl

/-- What a report may touch is among it. -/
theorem State.report_frame (s : State) (k : SweepId) (silent verdict : Bool) :
    s.UnitFrame (s.report k silent verdict) := by
  unfold State.report
  dsimp only
  split
  · refine State.UnitFrame.trans ?_ (State.checkDrain_frame _)
    rfl
  · rfl

theorem State.endUnit_frame (s : State) (d : Direction) : s.UnitFrame (s.endUnit d) :=
  (State.setClassifier_frame s d _).trans (State.checkDrain_frame _)

theorem deliver_frame (d : Direction) (u : UnitOfWork) (outputs : List Output) (s : State) :
    s.UnitFrame (deliver d u outputs s) := by
  refine deliver_keeps (P := s.UnitFrame) (Q := s.UnitFrame) ?_ ?_ ?_ ?_ ?_ ?_ ?_ outputs s (State.UnitFrame.refl s)
  · intro t h
    exact h.trans (State.endUnit_frame t d)
  · intro t outputs timer h
    exact h.trans (State.setClassifier_frame t d _)
  · intro t c _ h
    exact h.trans rfl
  · intro t h
    exact h.trans rfl
  · intro t e _ h
    exact h.trans rfl
  · intro t e _ h
    exact h.trans rfl
  · intro t k silent verdict h
    exact h.trans (State.report_frame t k silent verdict)

/-- What admission may touch: what a unit may, the Management Unit and the notice slots. -/
def State.ServeFrame (s t : State) : Prop :=
  t = { s with
    tp := { s.tp with tsq := t.tp.tsq }, dc := t.dc, uc := t.uc, fsq := t.fsq, mb := t.mb
    ts := { s.ts with state := t.ts.state }, la := { s.la with notice := t.la.notice }, ss := t.ss
    am := { s.am with count := t.am.count, pending := t.am.pending }, mu := t.mu, counters := t.counters }

theorem State.ServeFrame.refl (s : State) : s.ServeFrame s := rfl

theorem State.ServeFrame.trans {s t u : State} (h : s.ServeFrame t) (h' : t.ServeFrame u) : s.ServeFrame u := by
  unfold State.ServeFrame at *
  rw [h', h]

theorem State.UnitFrame.serve {s t : State} (h : s.UnitFrame t) : s.ServeFrame t := by
  unfold State.UnitFrame at h
  unfold State.ServeFrame
  rw [h]

theorem State.resume_frame (s : State) (d : Direction) (u : UnitOfWork) (outputs : List Output) :
    s.UnitFrame (s.resume d u outputs) := by
  exact (State.setClassifier_frame s d _).trans (deliver_frame d u outputs _)

theorem State.goOn_frame (s : State) (d : Direction) : s.UnitFrame (s.goOn d) := by
  unfold State.goOn
  split
  · exact State.resume_frame s d _ _
  · exact State.UnitFrame.refl s

theorem State.giveSlot_frame (s : State) (p : Producer) (e : TsqEntry) : s.ServeFrame (s.giveSlot p e) := by
  have h : s.ServeFrame (s.enterTsq e) := rfl
  cases p with
  | mu => exact h.trans rfl
  | uc => exact h.trans (State.goOn_frame _ _).serve
  | dc => exact h.trans (State.goOn_frame _ _).serve
  | la => exact h.trans rfl
  | am => exact h.trans rfl
  | ss k => exact h.trans rfl

theorem State.serve_frame (s : State) : s.ServeFrame s.serve :=
  State.serve_keeps (fun t p e _ _ h => h.trans (State.giveSlot_frame t p e)) (State.ServeFrame.refl s)

/-- What the trunk side may touch at the end of an act: what admission may, the transmitter and the trunk line. -/
def State.TrunkFrame (s t : State) : Prop :=
  t = { s with
    tp := { s.tp with
      tsq := t.tp.tsq, sending := t.tp.sending, headCounted := t.tp.headCounted, line := t.tp.line, change := t.tp.change }
    dc := t.dc, uc := t.uc, fsq := t.fsq, mb := t.mb
    ts := { s.ts with state := t.ts.state }, la := { s.la with notice := t.la.notice }, ss := t.ss
    am := { s.am with count := t.am.count, pending := t.am.pending }, mu := t.mu, counters := t.counters }

theorem State.TrunkFrame.refl (s : State) : s.TrunkFrame s := rfl

theorem State.TrunkFrame.trans {s t u : State} (h : s.TrunkFrame t) (h' : t.TrunkFrame u) : s.TrunkFrame u := by
  unfold State.TrunkFrame at *
  rw [h', h]

theorem State.ServeFrame.trunk {s t : State} (h : s.ServeFrame t) : s.TrunkFrame t := by
  unfold State.ServeFrame at h
  unfold State.TrunkFrame
  rw [h]

theorem State.serviceTrunk_frame (s : State) : s.TrunkFrame s.serviceTrunk :=
  State.serviceTrunk_keeps (P := s.TrunkFrame) (fun t p e _ _ h => h.trans (State.giveSlot_frame t p e).trunk)
    (fun _ _ h => h.trans rfl) (fun _ h => h.trans rfl) (fun _ _ _ _ _ h => h.trans rfl) (State.TrunkFrame.refl s)

theorem State.answer_frame (s : State) (e : TsqEntry) : s.TrunkFrame (s.answer e) :=
  State.answer_keeps (P := s.TrunkFrame) (fun t p e _ _ h => h.trans (State.giveSlot_frame t p e).trunk)
    (fun _ _ h => h.trans rfl) (fun _ h => h.trans rfl) (fun _ _ _ _ _ h => h.trans rfl) (fun _ h => h.trans rfl)
    (State.TrunkFrame.refl s)

@[simp] theorem State.serviceTrunk_pending (s : State) : s.serviceTrunk.pending = s.pending := by
  rw [State.serviceTrunk_frame s]
@[simp] theorem State.serviceTrunk_flc (s : State) : s.serviceTrunk.flc = s.flc := by rw [State.serviceTrunk_frame s]
@[simp] theorem State.serviceTrunk_fp (s : State) : s.serviceTrunk.fp = s.fp := by rw [State.serviceTrunk_frame s]
@[simp] theorem State.serviceTrunk_ab (s : State) : s.serviceTrunk.ab = s.ab := by rw [State.serviceTrunk_frame s]
@[simp] theorem State.serviceTrunk_config (s : State) : s.serviceTrunk.config = s.config := by
  rw [State.serviceTrunk_frame s]
@[simp] theorem State.answer_pending (s : State) (e : TsqEntry) : (s.answer e).pending = s.pending := by
  rw [State.answer_frame s e]
@[simp] theorem State.answer_flc (s : State) (e : TsqEntry) : (s.answer e).flc = s.flc := by rw [State.answer_frame s e]
@[simp] theorem State.answer_fp (s : State) (e : TsqEntry) : (s.answer e).fp = s.fp := by rw [State.answer_frame s e]
@[simp] theorem State.answer_ab (s : State) (e : TsqEntry) : (s.answer e).ab = s.ab := by rw [State.answer_frame s e]
@[simp] theorem State.answer_config (s : State) (e : TsqEntry) : (s.answer e).config = s.config := by
  rw [State.answer_frame s e]

/-! ## The field line -/

/-- What the end of a transaction may touch: the controller, the field line's settings, nothing else. -/
def State.FieldFrame (s t : State) : Prop :=
  t = { s with flc := t.flc, fp := { s.fp with line := t.fp.line, change := t.fp.change } }

theorem State.FieldFrame.refl (s : State) : s.FieldFrame s := rfl

theorem State.FieldFrame.trans {s t u : State} (h : s.FieldFrame t) (h' : t.FieldFrame u) : s.FieldFrame u := by
  unfold State.FieldFrame at *
  rw [h', h]

theorem State.takeFieldChange_frame (s : State) : s.FieldFrame s.takeFieldChange := by
  unfold State.takeFieldChange
  split
  · split
    · rfl
    · rfl
  · rfl

theorem State.enterSettling_frame (s : State) : s.FieldFrame s.enterSettling := by
  unfold State.enterSettling
  split
  · refine State.FieldFrame.trans ?_ (State.takeFieldChange_frame _)
    rfl
  · rfl

theorem State.closeTransaction_frame (s : State) (o : FieldOutcome) : s.FieldFrame (s.closeTransaction o) := by
  unfold State.closeTransaction
  split
  · split
    · exact State.enterSettling_frame s
    · refine State.FieldFrame.trans ?_ (State.enterSettling_frame _)
      rfl
  · exact State.enterSettling_frame s

end Sys2Proof.Machine
end

