-- ==== Sys2Proof/Laws/Store.lean ====
section
/-! SUPPORT. The sparse arrays: what a cell reads as after a write, and that every write keeps the canonical form; the things
that come in fours. -/

namespace Sys2Proof.Machine

variable {α : Type} [DecidableEq α]

theorem Sparse.wfFrom_mono {d : Nat → α} {lo lo' : Nat} {m : Sparse α} (h : Sparse.wfFrom d lo m = true) (hl : lo' ≤ lo) :
    Sparse.wfFrom d lo' m = true := by
  cases m with
  | nil => rfl
  | cons c rest =>
    obtain ⟨j, v⟩ := c
    simp only [Sparse.wfFrom, Bool.and_eq_true, decide_eq_true_eq] at h ⊢
    exact ⟨⟨by omega, h.1.2⟩, h.2⟩

/-- Below the first listed index every cell is unlisted. -/
theorem Sparse.get_of_lt {d : Nat → α} {lo k : Nat} {m : Sparse α} (h : Sparse.wfFrom d lo m = true) (hk : k < lo) :
    Sparse.get d m k = d k := by
  induction m generalizing lo with
  | nil => rfl
  | cons c rest ih =>
    obtain ⟨j, v⟩ := c
    simp only [Sparse.wfFrom, Bool.and_eq_true, decide_eq_true_eq] at h
    rw [Sparse.get, if_neg (by omega)]
    exact ih h.2 (by omega)

theorem Sparse.wfFrom_put {d : Nat → α} {lo k : Nat} {v : α} {m : Sparse α} (h : Sparse.wfFrom d lo m = true)
    (hk : lo ≤ k) : Sparse.wfFrom d lo (Sparse.put d k v m) = true := by
  induction m generalizing lo with
  | nil =>
    rw [Sparse.put]
    split
    · rfl
    · rename_i hv; simp [Sparse.wfFrom, hv, hk]
  | cons c rest ih =>
    obtain ⟨j, w⟩ := c
    have h' := h
    simp only [Sparse.wfFrom, Bool.and_eq_true, decide_eq_true_eq] at h'
    rw [Sparse.put]
    split
    · rename_i hkj
      split
      · exact h
      · rename_i hv
        simp only [Sparse.wfFrom, Bool.and_eq_true, decide_eq_true_eq]
        exact ⟨⟨hk, hv⟩, ⟨by omega, h'.1.2⟩, h'.2⟩
    · split
      · rename_i hkj
        subst hkj
        split
        · exact Sparse.wfFrom_mono h'.2 (by omega)
        · rename_i hv
          simp only [Sparse.wfFrom, Bool.and_eq_true, decide_eq_true_eq]
          exact ⟨⟨hk, hv⟩, h'.2⟩
      · simp only [Sparse.wfFrom, Bool.and_eq_true, decide_eq_true_eq]
        exact ⟨h'.1, ih h'.2 (by omega)⟩

/-- A write keeps the canonical form. -/
theorem Sparse.wf_put {d : Nat → α} {k : Nat} {v : α} {m : Sparse α} (h : Sparse.wf d m = true) :
    Sparse.wf d (Sparse.put d k v m) = true := Sparse.wfFrom_put h (Nat.zero_le k)

theorem Sparse.get_put_from {d : Nat → α} {lo k : Nat} {v : α} {m : Sparse α} (h : Sparse.wfFrom d lo m = true) (n : Nat) :
    Sparse.get d (Sparse.put d k v m) n = if n = k then v else Sparse.get d m n := by
  induction m generalizing lo with
  | nil =>
    rw [Sparse.put]
    split
    · rename_i hv; simp only [Sparse.get]; split
      · rename_i e; rw [e, hv]
      · rfl
    · rfl
  | cons c rest ih =>
    obtain ⟨j, w⟩ := c
    simp only [Sparse.wfFrom, Bool.and_eq_true, decide_eq_true_eq] at h
    rw [Sparse.put]
    split
    · rename_i hkj
      split
      · rename_i hv
        split
        · rename_i e; subst e
          rw [Sparse.get, if_neg (by omega), Sparse.get_of_lt h.2 (by omega), hv]
        · rfl
      · rfl
    · split
      · rename_i hkj
        subst hkj
        split
        · rename_i hv
          split
          · rename_i e; subst e; rw [Sparse.get_of_lt h.2 (by omega), hv]
          · rename_i e; rw [Sparse.get, if_neg e]
        · simp only [Sparse.get]
          split <;> rfl
      · rename_i h1 h2
        simp only [Sparse.get]
        split
        · rename_i e; subst e; rw [if_neg (by omega)]
        · exact ih h.2

/-- What a cell reads as after one write. -/
theorem Sparse.get_put {d : Nat → α} {k : Nat} {v : α} {m : Sparse α} (h : Sparse.wf d m = true) (n : Nat) :
    Sparse.get d (Sparse.put d k v m) n = if n = k then v else Sparse.get d m n := Sparse.get_put_from h n

/-- A run of writes keeps the canonical form. -/
theorem Sparse.wf_putRun {d : Nat → α} {start : Nat} {vs : List α} {m : Sparse α} (h : Sparse.wf d m = true) :
    Sparse.wf d (Sparse.putRun d start vs m) = true := by
  induction vs generalizing start m with
  | nil => exact h
  | cons v vs ih => exact ih (Sparse.wf_put h)

/-- What a cell reads as after a run of writes. -/
theorem Sparse.get_putRun {d : Nat → α} {start : Nat} {vs : List α} {m : Sparse α} (h : Sparse.wf d m = true) (n : Nat) :
    Sparse.get d (Sparse.putRun d start vs m) n =
      if start ≤ n then (vs[n - start]?).getD (Sparse.get d m n) else Sparse.get d m n := by
  induction vs generalizing start m with
  | nil => simp [Sparse.putRun]
  | cons v vs ih =>
    rw [Sparse.putRun, ih (Sparse.wf_put h), Sparse.get_put h]
    rcases Nat.lt_trichotomy n start with c | c | c
    · rw [if_neg (by omega), if_neg (by omega), if_neg (by omega)]
    · subst c; simp
    · rw [if_neg (show ¬n = start by omega), if_pos (show start + 1 ≤ n by omega), if_pos (show start ≤ n by omega),
        show n - start = (n - (start + 1)) + 1 by omega]
      simp

omit [DecidableEq α] in
theorem Sparse.getRun_eq {d : Nat → α} {m : Sparse α} (start n : Nat) :
    Sparse.getRun d m start n = (List.range n).map fun i => Sparse.get d m (start + i) := by
  induction n generalizing start with
  | zero => rfl
  | succ n ih =>
    rw [Sparse.getRun, ih, List.range_succ_eq_map]
    simp only [List.map_cons, List.map_map, Nat.add_zero, List.cons.injEq, true_and]
    apply List.map_congr_left
    intro i _
    simp only [Function.comp_apply, Nat.succ_eq_add_one]
    congr 1
    omega

/-! ## Fours -/

@[simp] theorem Four.get_set_same {β : Type} (f : Four β) (k : Fin 4) (v : β) : (f.set k v).get k = v := by
  fin_cases k <;> rfl

theorem Four.get_set {β : Type} (f : Four β) (k j : Fin 4) (v : β) :
    (f.set k v).get j = if j = k then v else f.get j := by
  fin_cases k <;> fin_cases j <;> rfl

theorem Four.get_set_ne {β : Type} (f : Four β) {k j : Fin 4} (v : β) (h : j ≠ k) : (f.set k v).get j = f.get j := by
  rw [Four.get_set, if_neg h]

theorem Four.get_map {β γ : Type} (g : β → γ) (f : Four β) (k : Fin 4) : (f.map g).get k = g (f.get k) := by
  fin_cases k <;> rfl

theorem Four.set_get {β : Type} (f : Four β) (k : Fin 4) : f.set k (f.get k) = f := by
  fin_cases k <;> rfl

theorem Four.mem_toList {β : Type} (f : Four β) (v : β) : v ∈ f.toList ↔ ∃ k, f.get k = v := by
  constructor
  · intro h
    simp only [Four.toList, List.mem_cons, List.not_mem_nil, or_false] at h
    rcases h with h | h | h | h
    · exact ⟨0, h.symm⟩
    · exact ⟨1, h.symm⟩
    · exact ⟨2, h.symm⟩
    · exact ⟨3, h.symm⟩
  · rintro ⟨k, rfl⟩
    fin_cases k <;> simp [Four.toList, Four.get]

/-! ## The accumulator bank -/

theorem bankGet_bankPut {bank : Sparse Accumulator} (h : Sparse.wf accumulatorDefault bank = true) (k n : Nat)
    (a : Accumulator) : bankGet (bankPut bank k a) n = if n = k then a else bankGet bank n := Sparse.get_put h n

theorem wf_bankPut {bank : Sparse Accumulator} (h : Sparse.wf accumulatorDefault bank = true) (k : Nat)
    (a : Accumulator) : Sparse.wf accumulatorDefault (bankPut bank k a) = true := Sparse.wf_put h

theorem wf_bankApply {bank : Sparse Accumulator} (h : Sparse.wf accumulatorDefault bank = true)
    (f : Accumulator → Accumulator) (first n : Nat) :
    Sparse.wf accumulatorDefault (bankApply f first n bank) = true := by
  induction n generalizing first bank with
  | zero => exact h
  | succ n ih => exact ih (wf_bankPut h _ _) _

/-- Each accumulator named is accessed once, and no other. -/
theorem bankGet_bankApply {bank : Sparse Accumulator} (h : Sparse.wf accumulatorDefault bank = true)
    (f : Accumulator → Accumulator) (first n k : Nat) :
    bankGet (bankApply f first n bank) k =
      if first ≤ k ∧ k < first + n then f (bankGet bank k) else bankGet bank k := by
  induction n generalizing first bank with
  | zero => rw [bankApply, if_neg (by omega)]
  | succ n ih =>
    rw [bankApply, ih (wf_bankPut h _ _), bankGet_bankPut h]
    rcases Nat.lt_trichotomy k first with c | c | c
    · rw [if_neg (by omega), if_neg (by omega), if_neg (by omega)]
    · subst c; rw [if_neg (by omega), if_pos rfl, if_pos (by omega)]
    · rw [if_neg (show ¬k = first by omega)]
      by_cases e : k < first + (n + 1)
      · rw [if_pos (by omega), if_pos (by omega)]
      · rw [if_neg (by omega), if_neg (by omega)]

theorem reset_wf : TableSet.powerOn.wf = true ∧ Sparse.wf accumulatorDefault ([] : Sparse Accumulator) = true := by
  decide

end Sys2Proof.Machine
end

