-- ==== Sys2Proof/WellFormed.lean ====
section
/-! DEFINITION. When a command is well formed: a telegram-end row carries characters the last of which ends exactly one
telegram (R4), whether they begin with the opening byte or follow a NEW_TELEGRAM_BEGUN or OPENING_BYTE_ARRIVES. Every
other operand is bounded by its type. -/

namespace Sys2Proof

open Sys2Proof.Machine

/-- From framer `f`, the last of the characters ends a telegram and none before it does. -/
def endsOneTelegram (f : Framer) (chars : List Rx) : Bool :=
  (f.takeAll chars).2.length == 1 && (f.takeAll chars.dropLast).2.isEmpty

def Instr.wellFormed : Instr → Bool
  | .powerOnReset _ _ => true
  | .trunkTelegramEnd chars => endsOneTelegram .hunt chars || endsOneTelegram .address chars
  | .gapLimitExpiry _ => true
  | .trunkPauseAssert => true
  | .trunkPauseRelease => true
  | .trunkTelegramSent => true
  | .downstreamTake => true
  | .upstreamTake => true
  | .holdTimerExpiry _ => true
  | .lineArbiterDecision => true
  | .requestSent => true
  | .openingByteArrives => true
  | .fieldTelegramEnd chars => endsOneTelegram .hunt chars || endsOneTelegram .address chars
  | .replyWindowExpiry => true
  | .settleTimerExpiry => true
  | .copyEnd => true
  | .bracketTimerExpiry => true
  | .periodTimerExpiry _ => true
  | .attentionAssertion => true
  | .attentionRelease => true
  | .identify => true
  | .status => true
  | .counters => true
  | .configRead => true
  | .configWrite => true
  | .tableReadWindow => true
  | .tableReadEntries => true
  | .tableReadActionRecord => true
  | .tableReadTranslateBytes => true
  | .tableReadDelimiterSet => true
  | .tableReadPatternBytes => true
  | .tableReadSweepItem => true
  | .tableWriteWindow => true
  | .tableWriteEntries => true
  | .tableWriteActionRecord => true
  | .tableWriteTranslateBytes => true
  | .tableWriteDelimiterSet => true
  | .tableWritePatternBytes => true
  | .tableWriteSweepItem => true
  | .publish => true
  | .accRead => true
  | .accSetup => true
  | .accClear => true
  | .sweepLoad => true
  | .sweepStart => true
  | .sweepResume => true
  | .sweepStop => true
  | .sweepRead => true
  | .mailboxTake => true
  | .bracketOpen => true
  | .bracketClose => true
  | .restart => true
  | .unknownCommand => true
  | .newTelegramBegun _ => true

end Sys2Proof
end

