-- ==== Sys2Proof/Tests/Slice0.lean ====
section
/-! SUPPORT. The model's own tests: the smoke test of WellFormed, the words of the check and of the worked examples of the
manual, and for every obligation with hypotheses a witness that meets them, each clause at a boundary of its range. -/

namespace Sys2Proof.Tests

open Sys2Proof.Machine

/-! ## Small states -/

/-- A management telegram alone in MCQ, right after reset. -/
def held (function : Byte) (payload : List Byte) : State :=
  { State.reset with tp := { State.reset.tp with mcq := [⟨0, function, payload⟩] } }

/-- The telegram `held` places. -/
def mine (function : Byte) (payload : List Byte) : Telegram := ⟨0, function, payload⟩

theorem held_atHead (function : Byte) (payload : List Byte) :
    (held function payload).atHead (mine function payload) [] := ⟨rfl, rfl⟩

theorem held_canonical (function : Byte) (payload : List Byte) : (held function payload).TablesCanonical :=
  ⟨rfl, rfl, rfl⟩

/-- The Table Store in another state. -/
def inStore (x : StoreState) (s : State) : State := { s with ts := { s.ts with state := x } }

/-- TSQ with `n` telegrams, and the transmitter sending. -/
def queued (n : Nat) (s : State) : State :=
  { s with tp := { s.tp with tsq := List.replicate n ⟨1, [0], false⟩, sending := some ⟨[1], false⟩ } }

/-- A request for station 5. -/
def request : Telegram := ⟨5, 65, [1, 2]⟩

/-- A unit that waits with one output. -/
def waiting (o : Output) : UnitOfWork := ⟨.request request, .zero, some .pass, true, [o], some 100⟩

def aCopy : MailboxCopy := ⟨.downstream, .trunk, .action 3, true, 2, 5, 65, [1, 2]⟩

/-- The mailbox with `n` entries. -/
def boxed (n : Nat) (s : State) : State :=
  { s with mb := ⟨List.replicate n ⟨0, aCopy⟩, BitVec.ofNat 16 n⟩ }

/-- A transaction of station 5, function 65, owned by the trunk. -/
def transaction (broadcast : Bool) : Transaction := ⟨.trunk, 5, 65, broadcast, false, none⟩

/-- The Field Line Controller in a state, with its record and window. -/
def onField (x : FlcState) (w : WindowTimer) (f : Framer) (s : State) : State :=
  { s with
    flc := { s.flc with state := x, record := some (transaction false), window := w }
    fp := { s.fp with framer := f } }

/-- Sweep 2 in a new context. -/
def sweeping (c : Sweep) (s : State) : State := { s with ss := s.ss.set 2 c }

/-- A RUNNING sweep with `n` items left of 3 and the given item outstanding. -/
def running (n : Nat) (item : Option (Nat × SetId)) : Sweep :=
  { Sweep.powerOn with state := .running, count := 3, cursor := 3 - n, remaining := n, outstanding := item, notify := true }

/-! ## Well-formedness: an ill-formed command for the check, which it refuses -/

theorem test_wellFormed_accepts :
    (Instr.trunkTelegramEnd (lineChars 5 65 [1, 2])).wellFormed = true
    ∧ (Instr.fieldTelegramEnd (lineChars 0x85 65 [])).wellFormed = true
    ∧ (Instr.trunkTelegramEnd ((lineChars 5 65 [1, 2]).drop 1)).wellFormed = true
    ∧ (Instr.trunkTelegramEnd [.byte 0x96, .broken]).wellFormed = true
    ∧ Instr.status.wellFormed = true := by decide +kernel

/-- No end of a telegram, two ends, and characters after the end are refused. -/
theorem test_wellFormed_refuses :
    (Instr.trunkTelegramEnd []).wellFormed = false
    ∧ (Instr.trunkTelegramEnd [.byte 0x96, .byte 5]).wellFormed = false
    ∧ (Instr.fieldTelegramEnd (lineChars 5 65 [] ++ [.byte 0])).wellFormed = false
    ∧ (Instr.fieldTelegramEnd (lineChars 5 65 [] ++ lineChars 5 65 [])).wellFormed = false := by decide +kernel

/-! ## Worked examples of the manual -/

theorem test_check_of_digits : check [0x31, 0x32, 0x33, 0x34, 0x35, 0x36, 0x37, 0x38, 0x39] = 0x29B1 := by decide +kernel

theorem test_comparisons :
    compareBytes [0x53, 0x54] [0x53, 0x54] = .eq ∧ compareBytes [0x55, 0x53] [0x53, 0x54] = .gt
    ∧ compareBytes [0x4F, 0x4C] [0x53, 0x54] = .lt ∧ compareBytes [0x53, 0x54] [0x53, 0x54, 0x20, 0x20, 0x20] = .eq
    ∧ compareBytes [0x53, 0x54, 0x31] [0x53, 0x54] = .gt ∧ compareBytes [] [0x53, 0x54] = .lt
    ∧ compareBytes [] [] = .eq ∧ compareBytes [0x73, 0x74] [0x53, 0x54] = .gt := by decide +kernel

/-- "+0012.35 kg", "-12.345", "-0.004", "5.", ".5", "999999999" twice, "12x", "+ 5". -/
theorem test_decimals :
    readDecimal 2 [0x2B, 0x30, 0x30, 0x31, 0x32, 0x2E, 0x33, 0x35, 0x20, 0x6B, 0x67] = some 1235
    ∧ readDecimal 2 [0x2D, 0x31, 0x32, 0x2E, 0x33, 0x34, 0x35] = some (-1234)
    ∧ readDecimal 2 [0x2D, 0x30, 0x2E, 0x30, 0x30, 0x34] = some 0
    ∧ readDecimal 0 [0x35, 0x2E] = some 5 ∧ readDecimal 1 [0x2E, 0x35] = some 5
    ∧ readDecimal 0 (List.replicate 9 0x39) = some 999999999 ∧ readDecimal 1 (List.replicate 9 0x39) = none
    ∧ readDecimal 0 [0x31, 0x32, 0x78] = none ∧ readDecimal 0 [0x2B, 0x20, 0x35] = none := by decide +kernel

theorem test_terms :
    accumulatorTerm 1230 1 1 = 2460 ∧ accumulatorTerm 7 3 (-1) = 10 ∧ accumulatorTerm (-7) 3 (-1) = -11
    ∧ accumulatorTerm (-8) 3 (-3) = -3 ∧ accumulatorTerm 1230 1 (-15) = 0 ∧ accumulatorTerm (-1230) 1 (-15) = -1
    ∧ accumulatorTerm 1999999998 32767 1 = 131067999868932 := by decide +kernel

theorem test_keys : keyOf 12 65 = 3137 ∧ keyOf 40 3 = 10243 ∧ keyOf 63 255 = 16383 := by decide +kernel

/-- With the pointer at 1 and sweeps 0 and 3 candidates, sweep 3 goes (R125). -/
theorem test_round_robin :
    let c := running 3 none
    let s := { State.reset with ss := ⟨c, .powerOn, .powerOn, c⟩, la := { State.reset.la with pointer := 1 } }
    s.nextSweep = some 3 ∧ { s with la := { s.la with pointer := 3 } }.nextSweep = some 0 := by decide +kernel

/-- IDENTIFY on an idle trunk is answered at once: the response is on the transmit pair. -/
theorem test_identify_starts_its_response :
    ∃ t, step { held 0x01 [] with pending := [.identify] } = .next t ∧ t.tp.mcq = [] ∧ t.tp.tsq = []
      ∧ (t.tp.sending.map (·.bytes.take 6)) = some [0x96, 0x80, 0x01, 24, 0, 0x10] := ⟨_, rfl, by decide +kernel⟩

/-! ## Witnesses of the obligations' hypotheses -/

theorem witness_EmptyQueueStepIsOneMillisecond :
    State.reset.pending = [] ∧ ({ State.reset with la := { State.reset.la with bracket := some 2 } } : State).tick.la.bracket
      = some 1 := by decide +kernel

theorem witness_RestartIsOneAct : (held 0x7F []).atHead (mine 0x7F []) [] := held_atHead _ _

/-- A busy transmitter with one free slot, a paused head already counted and not, an idle trunk; a full TSQ under a busy
transmitter and under pause, another producer waiting; a Management Unit that waits, and an empty MCQ. -/
theorem witness_ManagementTakesHeadAndAnswers :
    let e : State := { State.reset with mu := .executing }
    (e.firstWaiting = none)
    ∧ ((queued 15 e).firstWaiting = none ∧ (queued 15 e).tp.tsq.length < 16 ∧ (queued 15 e).tp.sending ≠ none)
    ∧ (let p : State := { e with tp := { e.tp with pause := true, headCounted := true } };
      p.firstWaiting = none ∧ p.tp.tsq.length < 16 ∧ p.tp.sending = none ∧ p.tp.change = none)
    ∧ (e.tp.tsq = [] ∧ e.tp.sending = none ∧ e.tp.change = none ∧ e.tp.pause = false)
    ∧ (let p : State := { e with tp := { e.tp with pause := true } };
      p.firstWaiting = none ∧ p.tp.tsq.length < 16 ∧ p.tp.sending = none ∧ p.tp.change = none ∧ p.tp.headCounted = false)
    ∧ (let f : State := { queued 16 e with am := ⟨3, true, .asserted⟩ };
      f.mu = .executing ∧ f.firstWaiting ≠ none ∧ 16 ≤ f.tp.tsq.length ∧ f.tp.sending ≠ none
      ∧ ∀ p : State, p = { f with tp := { f.tp with sending := none, pause := true, headCounted := true } } →
        p.mu = .executing ∧ 16 ≤ p.tp.tsq.length ∧ p.tp.change = none ∧ p.tp.pause = true ∧ p.tp.headCounted = true)
    ∧ (let h : State := { queued 16 e with dc := .stalled (waiting (.trunkQueue ⟨9, [9], false⟩)) };
      ∀ p : State, p = { h with tp := { h.tp with sending := none, change := some ⟨⟨.r9600, 33⟩, false⟩ } } →
        p.mu = .executing ∧ p.firstWaiting ≠ none ∧ p.tp.tsq = ⟨1, [0], false⟩ :: List.replicate 15 ⟨1, [0], false⟩
        ∧ p.tp.sending = none ∧ p.tp.change.any (·.sent) = false ∧ p.tp.pause = false)
    ∧ (({ e with mu := .waiting ⟨1, [0], false⟩ } : State).mu ≠ .idle ∧ State.reset.tp.mcq = []) := by
  refine ⟨by decide +kernel, by decide +kernel, by decide +kernel, by decide +kernel, by decide +kernel, ?_, ?_,
    by decide +kernel⟩
  · refine ⟨by decide +kernel, by decide +kernel, by decide +kernel, by decide +kernel, ?_⟩
    rintro p rfl
    decide +kernel
  · rintro _ p rfl
    decide +kernel

/-- One byte too many, one too few, an unknown code on each side of 0x80, and table commands of a wrong length, of no kind on
each side of the kinds, and cut off before their kind code or their count. -/
theorem witness_UnfitCommandsAreRefused :
    (held 0x01 [0]).atHead (mine 0x01 [0]) [] ∧ (held 0x11 (List.replicate 10 0)).atHead (mine 0x11 (List.replicate 10 0)) []
    ∧ (held 0x80 []).atHead (mine 0x80 []) []
    ∧ ((0x80 : Byte) ∉ commandCodes ∧ (0x04 : Byte) ∉ commandCodes ∧ (0x7E : Byte) ∉ commandCodes)
    ∧ (held 0x20 [0, 1, 0]).atHead (mine 0x20 [0, 1, 0]) [] ∧ (held 0x21 [7, 0]).atHead (mine 0x21 [7, 0]) []
    ∧ (held 0x21 [2, 0, 0, 1, 0]).atHead (mine 0x21 [2, 0, 0, 1, 0]) []
    ∧ (held 0x20 [0, 8]).atHead (mine 0x20 [0, 8]) [] ∧ (held 0x20 [0]).atHead (mine 0x20 [0]) []
    ∧ (held 0x21 [0]).atHead (mine 0x21 [0]) [] ∧ (held 0x21 []).atHead (mine 0x21 []) []
    ∧ (held 0x21 [6, 0, 0]).atHead (mine 0x21 [6, 0, 0]) [] ∧ ([0, 0] : List Byte).length < 3 ∧ 7 < (8 : Byte).toNat :=
  ⟨held_atHead _ _, held_atHead _ _, held_atHead _ _, by decide +kernel, held_atHead _ _, held_atHead _ _, held_atHead _ _,
    held_atHead _ _, held_atHead _ _, held_atHead _ _, held_atHead _ _, held_atHead _ _, by decide +kernel⟩

theorem witness_IdentifyReturnsTheCapacities : (held 0x01 []).atHead (mine 0x01 []) [] := held_atHead _ _

theorem witness_StatusAndConfigReadReturnImages :
    (held 0x02 []).atHead (mine 0x02 []) [] ∧ (held 0x10 []).atHead (mine 0x10 []) [] := ⟨held_atHead _ _, held_atHead _ _⟩

theorem witness_CountersAreReadAndCleared :
    (held 0x03 [0]).atHead (mine 0x03 [0]) [] ∧ (held 0x03 [1]).atHead (mine 0x03 [1]) []
    ∧ (held 0x03 [2]).atHead (mine 0x03 [2]) [] ∧ (1 : Byte).toNat ≤ 1 ∧ 1 < (2 : Byte).toNat :=
  ⟨held_atHead _ _, held_atHead _ _, held_atHead _ _, by decide +kernel, by decide +kernel⟩

/-- CONFIG_WRITE's faults, as the obligation lists them. -/
def configBad (b0 b1 b2 b3 b5 b6 b7 b8 b9 b10 : Byte) : Bool := decide
  (7 < b0.toNat ∨ 7 < b1.toNat ∨ b2.toNat < 11 ∨ b3 = 0 ∨ b5 = 0 ∨ 64 < b5.toNat ∨ 3 < b6.toNat
    ∨ 1 < b7.toNat ∨ 256 * b8.toNat + b9.toNat = 0 ∨ 1000 < 256 * b8.toNat + b9.toNat ∨ b10.extractLsb' 3 4 ≠ 0
    ∨ 4 < b10.toNat % 8)

/-- The records at both ends of their ranges are accepted; one field beyond its range is a fault, for each field. -/
theorem witness_ConfigWriteIsCheckedWhole :
    (held 0x11 [7, 7, 11, 1, 0, 64, 3, 1, 3, 0xE8, 0x84]).atHead (mine 0x11 [7, 7, 11, 1, 0, 64, 3, 1, 3, 0xE8, 0x84]) []
    ∧ ¬configBad 7 7 11 1 64 3 1 3 0xE8 0x84 ∧ ¬configBad 0 0 255 255 1 0 0 0 1 0
    ∧ configBad 8 7 11 1 64 3 1 3 0xE8 0x84 ∧ configBad 7 8 11 1 64 3 1 3 0xE8 0x84
    ∧ configBad 7 7 10 1 64 3 1 3 0xE8 0x84 ∧ configBad 7 7 11 0 64 3 1 3 0xE8 0x84
    ∧ configBad 7 7 11 1 65 3 1 3 0xE8 0x84 ∧ configBad 7 7 11 1 0 3 1 3 0xE8 0x84
    ∧ configBad 7 7 11 1 64 4 1 3 0xE8 0x84 ∧ configBad 7 7 11 1 64 3 2 3 0xE8 0x84
    ∧ configBad 7 7 11 1 64 3 1 3 0xE9 0x84 ∧ configBad 7 7 11 1 64 3 1 0 0 0x84
    ∧ configBad 7 7 11 1 64 3 1 3 0xE8 0x85 ∧ configBad 7 7 11 1 64 3 1 3 0xE8 0x8C :=
  ⟨held_atHead _ _, by decide +kernel⟩

/-- An image that repeats the record that stands, its values in use, no change waiting and nothing awaited. -/
theorem witness_ConfigWriteIsCheckedWhole_repeat :
    let s := held 0x11 ConfigRecord.powerOn.image
    ConfigRecord.ofImage ConfigRecord.powerOn.image = some s.config ∧ s.tp.line = s.config.trunkSettings
    ∧ s.tp.change = none ∧ s.fp.line = s.config.fieldSettings ∧ s.fp.change = none
    ∧ s.la.counter ≤ s.config.tenureLimit ∧ s.tp.tsq = [] ∧ s.tp.sending = none := by decide +kernel

/-- While a change waits: a second CONFIG_WRITE of other trunk values is awaited, and starts again what the first response
held back (R16). -/
theorem test_second_config_write_is_awaited :
    let s := held 0x11 { ConfigRecord.powerOn with trunkRate := .r38400 }.image
    ∃ t, step { s with
          config := { ConfigRecord.powerOn with trunkRate := .r9600 }
          tp := { s.tp with change := some ⟨⟨.r9600, 33⟩, true⟩, framer := .address }
          pending := [.configWrite] } = .next t
      ∧ t.tp.change = some ⟨⟨.r38400, 33⟩, false⟩ ∧ t.tp.tsq = [] ∧ t.tp.sending.map (·.awaited) = some true :=
  ⟨_, rfl, by decide +kernel⟩

/-- A record with the trunk values of the one that stands, while they wait: the free value decides, either way (log 11). -/
theorem test_repeat_of_waiting_values_is_free (free : Config.repeatLeavesTrunkChange = true) :
    let record := { ConfigRecord.powerOn with trunkRate := .r9600 }
    let s := held 0x11 record.image
    ({ s with config := record, tp := { s.tp with change := some ⟨⟨.r9600, 33⟩, true⟩ } } : State).leavesTrunkChange record
      = true := by
  rw [State.leavesTrunkChange_iff]
  exact ⟨by decide, rfl, free⟩

theorem test_repeat_of_waiting_values_is_free' (free : Config.repeatLeavesTrunkChange = false) (s : State)
    (c : ConfigRecord) : s.leavesTrunkChange c = false := by
  unfold State.leavesTrunkChange
  rw [free, Bool.and_false]

/-- The last accumulator, sixteen of them, and each fault one beyond. -/
theorem witness_AccReadReturnsImages :
    let bad := fun first count flags : Byte =>
      decide (31 < first.toNat ∨ count = 0 ∨ 16 < count.toNat ∨ 32 < first.toNat + count.toNat ∨ 1 < flags.toNat)
    (held 0x30 [31, 1, 1]).TablesCanonical ∧ (held 0x30 [31, 1, 1]).atHead (mine 0x30 [31, 1, 1]) []
    ∧ ¬bad 31 1 1 ∧ ¬bad 16 16 0 ∧ bad 32 1 0 ∧ bad 0 0 0 ∧ bad 0 17 0 ∧ bad 17 16 0 ∧ bad 0 1 2 :=
  ⟨held_canonical _ _, held_atHead _ _, by decide +kernel⟩

theorem witness_AccClearAndSetup :
    let bad := fun first count : Byte =>
      decide (31 < first.toNat ∨ count = 0 ∨ 32 < count.toNat ∨ 32 < first.toNat + count.toNat)
    (held 0x32 [0, 32]).TablesCanonical ∧ (held 0x32 [0, 32]).atHead (mine 0x32 [0, 32]) []
    ∧ (held 0x31 [31, 1, 1]).TablesCanonical ∧ (held 0x31 [31, 1, 1]).atHead (mine 0x31 [31, 1, 1]) []
    ∧ ¬bad 0 32 ∧ ¬bad 31 1 ∧ bad 32 1 ∧ bad 0 0 ∧ bad 0 33 ∧ bad 1 32 ∧ 1 < (2 : Byte).toNat :=
  ⟨held_canonical _ _, held_atHead _ _, held_canonical _ _, held_atHead _ _, by decide +kernel⟩

theorem witness_PublishFlipsTheLiveSet :
    (held 0x22 []).atHead (mine 0x22 []) [] ∧ (held 0x22 []).ts.state = .editable
    ∧ (inStore .draining (held 0x22 [])).atHead (mine 0x22 []) []
    ∧ (inStore .draining (held 0x22 [])).ts.state ≠ .editable := ⟨held_atHead _ _, rfl, ⟨rfl, rfl⟩, by decide +kernel⟩

theorem witness_CopyEndEqualizesTheSets :
    (inStore .copying State.reset).ts.state = .copying ∧ State.reset.ts.state ≠ .copying := by decide +kernel

/-- One telegram of each kind, at the top of its ranges. -/
theorem witness_TableReadsReturnImages :
    (held 0x20 [1, 1, 1, 3]).atHead (mine 0x20 [1, 1, 1, 3]) []
    ∧ (held 0x20 [0, 2, 7, 255, 1]).atHead (mine 0x20 [0, 2, 7, 255, 1]) []
    ∧ (held 0x20 [0, 3, 255]).atHead (mine 0x20 [0, 3, 255]) []
    ∧ (held 0x20 [0, 4, 3, 128, 128]).atHead (mine 0x20 [0, 4, 3, 128, 128]) []
    ∧ (held 0x20 [0, 5, 7]).atHead (mine 0x20 [0, 5, 7]) []
    ∧ (held 0x20 [0, 6, 7, 128, 128]).atHead (mine 0x20 [0, 6, 7, 128, 128]) []
    ∧ (held 0x20 [0, 7, 255]).atHead (mine 0x20 [0, 7, 255]) [] :=
  ⟨held_atHead _ _, held_atHead _ _, held_atHead _ _, held_atHead _ _, held_atHead _ _, held_atHead _ _, held_atHead _ _⟩

/-- A window that reaches entry 2047 exactly, and each fault one beyond. -/
theorem witness_WindowWriteIsChecked :
    let bad := fun (d w f : Byte) (low high base : Nat) =>
      decide (1 < d.toNat ∨ 3 < w.toNat ∨ f.toNat % 128 ≠ 0 ∨ 16383 < low ∨ 16383 < high ∨ high < low ∨ 2047 < base
        ∨ 2047 < base + (high - low))
    (held 0x21 [1, 1, 3, 128, 0, 0, 0, 255, 7, 0]).atHead (mine 0x21 [1, 1, 3, 128, 0, 0, 0, 255, 7, 0]) []
    ∧ (inStore .copying (held 0x21 [1, 1, 3, 128, 0, 0, 0, 255, 7, 0])).ts.state ≠ .editable
    ∧ ¬bad 1 3 128 0 255 1792 ∧ ¬bad 0 0 0 16383 16383 2047 ∧ bad 2 3 128 0 0 0 ∧ bad 1 4 128 0 0 0 ∧ bad 1 3 129 0 0 0
    ∧ bad 1 3 128 16384 16384 0 ∧ bad 1 3 128 0 16384 0 ∧ bad 1 3 128 1 0 0 ∧ bad 1 3 128 0 0 2048
    ∧ bad 1 3 128 0 256 1792 := ⟨held_atHead _ _, by decide +kernel⟩

theorem witness_EntriesWriteIsChecked :
    (held 0x21 [2, 7, 255, 1, 0, 255]).TablesCanonical
    ∧ (held 0x21 [2, 7, 255, 1, 0, 255]).atHead (mine 0x21 [2, 7, 255, 1, 0, 255]) []
    ∧ ([0, 255] : List Byte).length = 2 * (1 : Byte).toNat
    ∧ entriesOf [0, 255] = some [.action 255] ∧ entriesOf [0xFF, 0xFE] = some [.drop] ∧ entriesOf [0xFF, 0xFF] = some [.pass]
    ∧ entriesOf [1, 0] = none ∧ entriesAt [8, 0, 1] = none ∧ entriesAt [7, 255, 2] = none ∧ entriesAt [0, 0, 101] = none
    ∧ entriesAt [0, 0, 0] = none := ⟨held_canonical _ _, held_atHead _ _, by decide +kernel⟩

theorem witness_ByteTableWritesAreChecked :
    (held 0x21 [4, 3, 255, 1, 9]).atHead (mine 0x21 [4, 3, 255, 1, 9]) []
    ∧ (held 0x21 [6, 7, 255, 1, 9]).atHead (mine 0x21 [6, 7, 255, 1, 9]) []
    ∧ (held 0x21 (5 :: 7 :: List.replicate 32 255)).atHead (mine 0x21 (5 :: 7 :: List.replicate 32 255)) []
    ∧ (held 0x21 [4, 3, 255, 1, 9]).TablesCanonical
    ∧ translateAt [3, 255, 1] = some (1023, 1) ∧ translateAt [4, 0, 1] = none ∧ translateAt [0, 255, 2] = none
    ∧ translateAt [0, 0, 129] = none ∧ translateAt [0, 0, 0] = none ∧ patternAt [7, 255, 1] = some (2047, 1)
    ∧ patternAt [7, 255, 2] = none ∧ patternAt [8, 0, 1] = none ∧ delimiterAt [7] = some 7 ∧ delimiterAt [8] = none :=
  ⟨held_atHead _ _, held_atHead _ _, held_atHead _ _, held_canonical _ _, by decide +kernel⟩

theorem witness_SweepItemWriteIsChecked :
    (held 0x21 [7, 255, 0xBE, 9, 7, 255, 1]).TablesCanonical
    ∧ (held 0x21 [7, 255, 0xBE, 9, 7, 255, 1]).atHead (mine 0x21 [7, 255, 0xBE, 9, 7, 255, 1]) []
    ∧ itemOfImage [0xBE, 9, 7, 255, 1] = some (some ⟨62, 9, ⟨2047, 1⟩⟩) ∧ itemOfImage [0x3F, 9, 8, 0, 0] = some none
    ∧ itemOfImage [0xBF, 9, 0, 0, 1] = none ∧ itemOfImage [0xC0, 9, 0, 0, 1] = none ∧ itemOfImage [0x80, 9, 8, 0, 0] = none
    ∧ itemOfImage [0x80, 9, 7, 255, 2] = none ∧ itemOfImage [0x80, 9, 0, 0, 241] = none :=
  ⟨held_canonical _ _, held_atHead _ _, by decide +kernel⟩

/-- A record with every stage, at the ends of its ranges. -/
def fullRecord : List Byte :=
  [0xFF, 7, 13, 3, 2] ++ [239, 1, 7, 255, 1] ++ [3, 0, 240] ++ [0, 240, 7, 8, 6] ++ [0x3B, 0x9A, 0xC9, 0xFF]
    ++ [0x80, 0, 0, 0, 0x7F, 0xFF, 0xFF, 0xFF] ++ [24, 1, 0x80, 1, 0xF1]

theorem witness_ActionRecordWriteReplacesWhole :
    (held 0x21 (3 :: 255 :: fullRecord)).TablesCanonical
    ∧ (held 0x21 (3 :: 255 :: fullRecord)).atHead (mine 0x21 (3 :: 255 :: fullRecord)) []
    ∧ fullRecord.length = 35 ∧ (recordOfImage fullRecord).isSome = true
    ∧ recordOfImage (List.replicate 35 0) = some none
    ∧ recordOfImage (0x80 :: List.replicate 34 1) = none := ⟨held_canonical _ _, held_atHead _ _, by decide +kernel⟩

/-- Each of the three clauses, and in the second one fault of each kind: a range, the consistency, the condition's stage,
a reserved bit, a byte of an absent stage. -/
theorem witness_ActionRecordImageIsChecked :
    fullRecord.length = 35
    ∧ (recordOfImage fullRecord).bind (fun r => r.bind (·.accumulate)) = some ⟨24, true, -32767, -15⟩
    ∧ recordOfImage (0x7F :: fullRecord.tail) = some none
    ∧ recordOfImage (fullRecord.set 5 240) = none ∧ recordOfImage (fullRecord.set 30 25) = none
    ∧ recordOfImage (fullRecord.set 16 9) = none ∧ recordOfImage (fullRecord.set 31 3) = none
    ∧ recordOfImage (0x80 :: 0 :: 6 :: List.replicate 32 0) = none
    ∧ recordOfImage ((0x80 :: List.replicate 34 0).set 34 1) = none := by decide +kernel

theorem witness_ImagesReadBackAsWritten :
    (Window.ofImage [128, 0, 1, 0x3F, 0xFF, 0, 0]).isSome = false
    ∧ Window.ofImage [128, 0x3F, 0xFF, 0x3F, 0xFF, 7, 255] = some ⟨true, 16383, 16383, 2047⟩
    ∧ Entry.ofCode 255 = some (.action 255) ∧ Entry.ofCode 0xFFFE = some .drop ∧ Entry.ofCode 0xFFFF = some .pass
    ∧ (recordOfImage fullRecord).map recordImage = some fullRecord
    ∧ (itemOfImage [0xBE, 9, 7, 255, 1]).isSome = true
    ∧ (ConfigRecord.ofImage [7, 7, 11, 1, 0, 64, 3, 1, 3, 0xE8, 0x84]).isSome = true := by decide +kernel

theorem witness_ImagesReadBackAsWritten_config : ConfigRecord.powerOn.InRange := by
  constructor <;> decide

theorem witness_FramerTakesWhatATransmitterSends :
    (List.replicate 240 (7 : Byte)).length ≤ 240
    ∧ check (coveredBytes 5 65 []) ≠ (0 : Byte) ++ (0 : Byte) := by decide +kernel

theorem witness_FramersBeginAndAbandonTelegrams :
    Framer.address ≠ .hunt ∧ 240 < (241 : Byte).toNat ∧ (0x95 : Byte) ≠ 0x96
    ∧ (State.reset.tp.framer = .hunt ∧ State.reset.fp.framer = .hunt ∧ State.reset.flc.state ≠ .awaiting
      ∧ State.reset.fp.driverEnable = false)
    ∧ ((onField .awaiting (.running 20) .hunt State.reset).fp.framer = .hunt
      ∧ (onField .awaiting (.running 20) .hunt State.reset).flc.state = .awaiting)
    ∧ ((onField .settling .stopped .hunt State.reset).fp.framer = .hunt
      ∧ (onField .settling .stopped .hunt State.reset).flc.state ≠ .awaiting
      ∧ (onField .settling .stopped .hunt State.reset).fp.driverEnable = false)
    ∧ (let s := onField .sending .stopped .hunt { State.reset with fp := { State.reset.fp with driverEnable := true } };
      s.flc.state ≠ .awaiting ∧ s.fp.driverEnable = true) := by decide +kernel

/-- A telegram that ends in each way, and the queues at their last free slot and full. -/
theorem witness_TrunkTelegramsAreSorted :
    State.reset.tp.framer.takeAll [.byte 0x96, .broken] = (.hunt, [.malformed])
    ∧ State.reset.tp.framer.takeAll [.byte 0x96, .byte 0, .byte 1, .byte 0, .byte 0, .byte 0] = (.hunt, [.corrupt])
    ∧ State.reset.tp.framer.takeAll (lineChars 0x80 1 []) = (.hunt, [.good ⟨0x80, 1, []⟩])
    ∧ State.reset.tp.framer.takeAll (lineChars 0 1 []) = (.hunt, [.good ⟨0, 1, []⟩])
    ∧ State.reset.tp.framer.takeAll (lineChars 63 1 []) = (.hunt, [.good ⟨63, 1, []⟩])
    ∧ (List.replicate 3 request).length < 4 ∧ 4 ≤ (List.replicate 4 request).length
    ∧ (List.replicate 7 request).length < 8 ∧ 8 ≤ (List.replicate 8 request).length := by decide +kernel

theorem witness_GapLimitAbandonsATelegram :
    ({ State.reset with tp := { State.reset.tp with framer := .address } } : State).tp.framer ≠ .hunt
    ∧ ((onField .receiving (.running 1) (.function 5) State.reset).fp.framer ≠ .hunt
      ∧ (onField .receiving (.running 1) (.function 5) State.reset).flc.state = .receiving)
    ∧ ((onField .settling .stopped (.function 5) State.reset).fp.framer ≠ .hunt
      ∧ (onField .settling .stopped (.function 5) State.reset).flc.state ≠ .receiving)
    ∧ State.reset.tp.framer = .hunt ∧ State.reset.fp.framer = .hunt := by decide +kernel

/-- The head of TSQ waiting on an idle transmitter, and a transmitter at the end of its telegram with TSQ empty and not,
paused and not, counted and not. -/
theorem witness_PauseAndTheTransmitter :
    let idle : State := { State.reset with tp := { State.reset.tp with tsq := [⟨1, [0], false⟩], pause := true } }
    let paused : State := { queued 1 State.reset with tp := { (queued 1 State.reset).tp with pause := true } }
    (idle.firstWaiting = none ∧ idle.tp.sending = none ∧ idle.tp.change = none ∧ idle.tp.tsq = [⟨1, [0], false⟩])
    ∧ (State.reset.firstWaiting = none ∧ State.reset.tp.tsq = [] ∧ State.reset.tp.change = none)
    ∧ ((queued 0 State.reset).firstWaiting = none ∧ (queued 0 State.reset).tp.sending = some ⟨[1], false⟩
      ∧ (queued 0 State.reset).tp.change = none ∧ (queued 0 State.reset).tp.tsq = [])
    ∧ ((queued 1 State.reset).firstWaiting = none ∧ (queued 1 State.reset).tp.tsq = [⟨1, [0], false⟩]
      ∧ (queued 1 State.reset).tp.pause = false)
    ∧ (paused.firstWaiting = none ∧ paused.tp.tsq ≠ [] ∧ paused.tp.pause = true ∧ paused.tp.headCounted = false)
    ∧ ({ paused with tp := { paused.tp with headCounted := true } } : State).firstWaiting = none := by decide +kernel

theorem witness_TrunkLineChangeFollowsItsResponse :
    let s : State :=
      { State.reset with tp := { State.reset.tp with sending := some ⟨[1], true⟩, change := some ⟨⟨.r9600, 33⟩, false⟩ } }
    let mid : State := { s with tp := { s.tp with framer := .address } }
    (s.tp.sending = some ⟨[1], true⟩ ∧ s.tp.change = some ⟨⟨.r9600, 33⟩, false⟩ ∧ s.firstWaiting = none
      ∧ s.tp.framer = .hunt ∧ s.tp.tsq = [])
    ∧ (({ s with tp := { s.tp with tsq := [⟨9, [9], false⟩] } } : State).firstWaiting = none ∧ s.tp.pause = false)
    ∧ (mid.tp.framer ≠ .hunt ∧ mid.firstWaiting = none ∧ mid.tp.sending = some ⟨[1], true⟩) := by decide +kernel

/-- TSQ full and each producer waiting as the first: the Management Unit, both classifiers and the three kinds of slot; at the
end of a telegram, and at the release of pause on an idle transmitter. -/
theorem witness_FreedSlotGoesToTheFirstWaiting :
    let full := queued 16 State.reset
    let e : TsqEntry := ⟨9, [9], false⟩
    let stuck := waiting (.trunkQueue e)
    (full.tp.sending ≠ none ∧ full.tp.change = none ∧ full.tp.pause = false
      ∧ full.tp.tsq = ⟨1, [0], false⟩ :: List.replicate 15 ⟨1, [0], false⟩ ∧ 16 ≤ full.tp.tsq.length)
    ∧ (let p : State := { full with mu := .waiting e, tp := { full.tp with sending := none, pause := true } };
      p.tp.sending = none ∧ p.firstWaiting = some (.mu, e))
    ∧ ({ full with mu := .waiting e, uc := .stalled stuck, dc := .stalled stuck } : State).firstWaiting = some (.mu, e)
    ∧ ({ full with uc := .stalled stuck, dc := .stalled stuck } : State).firstWaiting = some (.uc, e)
    ∧ ({ full with dc := .stalled stuck, la := { full.la with notice := some ⟨1, 2⟩ } } : State).firstWaiting
      = some (.dc, e)
    ∧ ({ full with la := { full.la with notice := some ⟨1, 2⟩ }, am := ⟨3, true, .asserted⟩ } : State).firstWaiting
      = some (.la, ⟨0xE5, [1, 0, 2], false⟩)
    ∧ ({ full with am := ⟨3, true, .asserted⟩ } : State).firstWaiting = some (.am, ⟨0xE3, [3, 1], false⟩)
    ∧ (sweeping { Sweep.powerOn with notice := some ⟨.found, 1, 2, 5, 6, true⟩ } full).firstWaiting
      = some (.ss 2, ⟨0xE4, [2, 3, 0, 1, 0, 2, 5, 0, 6, 1], false⟩) := by decide +kernel

/-- Table sets with a window at one key, and the four outcomes of the dispatch. -/
def windowed (e : Entry) : State :=
  { State.reset with
    ts := { State.reset.ts with
      set0 := { TableSet.powerOn with
        downstream := ⟨⟨false, 0, 16383, 0⟩, ⟨true, 1345, 1345, 2047⟩, .powerOn, .powerOn⟩
        entries := [(2047, e)] } } }

theorem witness_DispatchGoesByTheFirstWindow :
    (let W := fun k : Fin 4 => ((windowed .drop).ts.set0.windows .downstream).get k;
      (W 1).enabled = true ∧ (W 1).low ≤ request.key ∧ request.key ≤ (W 1).high ∧ (W 0).enabled = false
        ∧ (W 1).base + request.key - (W 1).low = 2047)
    ∧ (windowed .drop).ts.set0.entry 2047 = .drop ∧ (windowed (.action 7)).ts.set0.entry 2047 = .action 7
    ∧ (windowed (.action 7)).ts.set0.record 7 = none ∧ (State.reset.judge .downstream .zero request).1.result = .pass
    ∧ ((windowed .drop).judge .downstream .zero request).1.result = .drop := by decide +kernel

theorem witness_FieldsAreSplitAtDelimiters :
    splitFields (· == 0x2C) [0x31, 0x2C, 0x2C, 0x32] = [[0x31], [], [0x32]]
    ∧ splitFields (· == 0x2C) [] = [[]] ∧ splitFields (· == 0x2C) [0x2C] = [[], []]
    ∧ (∀ b ∈ ([0x31] : List Byte), (b == 0x2C) = false) ∧ ([[0x31], []] : List (List Byte)).length ≤ 2
    ∧ ([[0x31], []] : List (List Byte))[1]? = some [] := by decide +kernel

/-- Nine digits, ten digits, a magnitude at the top and one decimal over it. -/
theorem witness_DecimalReaderReadsOneNumber :
    let nine := List.replicate 9 (0x39 : Byte)
    ([0x2D] : List Byte) ∈ ([[], [0x2B], [0x2D]] : List (List Byte)) ∧ (∀ b ∈ nine, b ≠ 0x20)
    ∧ (nine.head? ≠ some 0x2B ∧ nine.head? ≠ some 0x2D)
    ∧ readDecimal 0 (0x20 :: 0x2D :: nine ++ [0x20, 0x78]) = some (-999999999)
    ∧ readDecimal 1 (0x2D :: nine) = none ∧ readDecimal 0 (List.replicate 10 0x30) = none := by decide +kernel

/-- A read that succeeds, with every stage, and one that fails. -/
theorem witness_RepetitionsRunUntilAFailure :
    let e : ExtractStage := ⟨⟨0, 10⟩, 0, 15, 0⟩
    Sparse.wf accumulatorDefault [] = true ∧ readField e.decimals (List.replicate 16 [0x35]) (e.field + 0) = some 5
    ∧ readField e.decimals (List.replicate 15 [0x35]) (e.field + 0) = none := by decide +kernel

theorem witness_AccumulationIsExact :
    Accumulator.powerOn.inRange ∧ (⟨140737488355327, 4294967295, 32767, false, .wrap⟩ : Accumulator).inRange
    ∧ (-1999999998 : Int) ≤ 1999999998 ∧ (-32767 : Int) ≤ 32767 ∧ (-15 : Int) ≤ 1
    ∧ (⟨140737488355327, 0, 32767, false, .wrap⟩ : Accumulator).accumulate 1 1 0
      = ⟨-140737488355328, 1, 32767, true, .wrap⟩
    ∧ (⟨-140737488355328, 4294967295, 0, false, .saturate⟩ : Accumulator).accumulate (-1) 1 0
      = ⟨-140737488355328, 4294967295, 0, true, .saturate⟩ := by
  unfold Accumulator.inRange; decide +kernel

theorem witness_VerdictConditionsReadTheResults :
    let a : AccumulateStage := ⟨31, false, 1, 0⟩
    let r : ActionRecord := ⟨false, 0, .accOverflow, .forward, .drop, none, none, none, none, none, some a⟩
    Sparse.wf accumulatorDefault [(31, ⟨0, 0, 0, true, .saturate⟩)] = true ∧ r.accumulate = some a
    ∧ runVerdict r false .start [(31, ⟨0, 0, 0, true, .saturate⟩)] = (true, [])
    ∧ ({ r with accumulate := none } : ActionRecord).accumulate = none := by decide +kernel

/-- A telegram in TRQ of an idle classifier: FSQ with room and full, TSQ with room and full, a broadcast and not, the
mailbox at its last free slot. -/
theorem witness_DownstreamTakeDelivers :
    let s : State := { State.reset with tp := { State.reset.tp with trq := [request] } }
    let full : State := { s with fsq := List.replicate 16 ⟨request, false⟩ }
    let dropped : State := { windowed .drop with tp := { State.reset.tp with trq := [request] } }
    (s.dc = .idle ∧ s.tp.trq = [request] ∧ (boxed 7 s).mb.entries.length < 8)
    ∧ (((s.setTrq []).judge .downstream s.ts.live request).1.disposition = .forward ∧ s.fsq.length < 16
      ∧ 16 ≤ full.fsq.length)
    ∧ (((dropped.setTrq []).judge .downstream dropped.ts.live request).1.disposition = .drop ∧ request.station ≠ 63
      ∧ dropped.tp.tsq.length < 16 ∧ dropped.firstWaiting = none ∧ 16 ≤ (queued 16 dropped).tp.tsq.length)
    ∧ (⟨63, 65, []⟩ : Telegram).station = 63
    ∧ (({ s with dc := .stalled (waiting (.fieldQueue ⟨request, false⟩)) } : State).dc ≠ .idle ∧ State.reset.tp.trq = []) := by
  decide +kernel

theorem witness_DownstreamTakeDelivers_drainHeld : State.reset.drainHeld := by
  intro h; exact absurd h (by decide +kernel)

/-- Outcome records of both owners at the head of FRQ. -/
theorem witness_UpstreamTakeDelivers :
    let s := fun r : OutcomeRecord => { State.reset with flc := { State.reset.flc with frq := [r] } }
    let reply : OutcomeRecord := ⟨.trunk, 5, 65, .reply ⟨0x85, 65, [1]⟩⟩
    let r := sweeping (running 1 (some (2, .zero))) (s ⟨.sweep 2, 5, 65, .noReply⟩)
    ((s reply).uc = .idle ∧ (s reply).flc.frq = [reply] ∧ (s reply).tp.tsq.length < 16 ∧ (s reply).firstWaiting = none
      ∧ 16 ≤ (queued 16 (s reply)).tp.tsq.length)
    ∧ ((s reply).judge .upstream .zero ⟨0x85, 65, [1]⟩).1.disposition = .forward
    ∧ (r.uc = .idle ∧ r.flc.frq = [⟨.sweep 2, 5, 65, .noReply⟩] ∧ (r.ss.get 2).state = .running
      ∧ (r.ss.get 2).outstanding = some (2, .zero))
    ∧ (({ r with uc := .stalled (waiting (.mailbox aCopy)) } : State).uc ≠ .idle ∧ State.reset.flc.frq = []) := by
  decide +kernel

/-- The mailbox at its last free slot and full, under both policies, and a copy that waits. -/
theorem witness_CopiesArePlacedLostOrHeld :
    let hold : State := { State.reset with config := { ConfigRecord.powerOn with policy := .hold } }
    let s : State := { boxed 8 hold with dc := .stalled (waiting (.mailbox aCopy)) }
    (boxed 7 State.reset).mb.entries.length < 8
    ∧ (8 ≤ (boxed 8 State.reset).mb.entries.length ∧ (boxed 8 State.reset).config.policy = .lose)
    ∧ (8 ≤ (boxed 8 hold).mb.entries.length ∧ (boxed 8 hold).config.policy = .hold)
    ∧ (s.classifier .downstream = .stalled (waiting (.mailbox aCopy)) ∧ (waiting (.mailbox aCopy)).outputs = [.mailbox aCopy]
      ∧ (waiting (.mailbox aCopy)).holdTimer = some 100 ∧ s.fsq.length < 16) := by decide +kernel

/-- MAILBOX_TAKE on an empty mailbox, on one entry, and on a full mailbox that each classifier waits for. -/
theorem witness_MailboxTakeReturnsTheOldest :
    let s := boxed 8 (held 0x50 [])
    let u : State := { s with uc := .stalled (waiting (.mailbox aCopy)) }
    let d : State := { s with dc := .stalled (waiting (.mailbox aCopy)) }
    ((held 0x50 []).mb.entries = [] ∧ (boxed 1 (held 0x50 [])).mb.entries = [⟨0, aCopy⟩])
    ∧ (s.uc.waitsForMailbox = none ∧ s.dc.waitsForMailbox = none)
    ∧ (u.uc = .stalled (waiting (.mailbox aCopy)) ∧ u.mb.entries = ⟨0, aCopy⟩ :: List.replicate 7 ⟨0, aCopy⟩
      ∧ (List.replicate 7 (⟨0, aCopy⟩ : MailboxEntry)).length < 8)
    ∧ (d.uc.waitsForMailbox = none ∧ d.dc = .stalled (waiting (.mailbox aCopy))) := by decide +kernel

theorem witness_MailboxTakeReturnsTheOldest_atHead :
    (held 0x50 []).atHead (mine 0x50 []) [] ∧ (boxed 8 (held 0x50 [])).atHead (mine 0x50 []) [] := ⟨held_atHead _ _, ⟨rfl, rfl⟩⟩

/-- Every row of the tenure table, an urgent head, a broadcast head with FRQ full, and an open bracket. -/
theorem witness_DecisionsGoByTenure :
    let t : State := { State.reset with fsq := [⟨request, false⟩] }
    let w : State := sweeping (running 1 none) State.reset
    let both : State := sweeping (running 1 none) t
    let s : State := { both with la := { both.la with holder := .sweeps, counter := 1 } }
    let b : State := { both with la := { both.la with bracket := some 1 } }
    t.decideGrant = some (.trunk, t.la) ∧ w.decideGrant = some (.sweeps, { w.la with holder := .sweeps, counter := 8 })
    ∧ both.decideGrant = some (.trunk, { both.la with counter := 7 })
    ∧ s.decideGrant = some (.sweeps, { s.la with holder := .trunk, counter := 8 })
    ∧ ({ t with la := { t.la with holder := .sweeps, counter := 3 } } : State).decideGrant
      = some (.trunk, { t.la with holder := .trunk, counter := 8 })
    ∧ ({ w with la := { w.la with holder := .sweeps, counter := 3 } } : State).decideGrant
      = some (.sweeps, { w.la with holder := .sweeps, counter := 3 })
    ∧ ({ s with fsq := [⟨request, true⟩] } : State).decideGrant = some (.trunk, { s.la with holder := .trunk, counter := 8 })
    ∧ b.decideGrant = some (.trunk, { b.la with grants := 1 }) ∧ { b with fsq := [] }.decideGrant = none
    ∧ State.reset.decideGrant = none := by decide +kernel

theorem witness_SweepsAreServedInTurn : (sweeping (running 1 none) State.reset).nextSweep = some 2 := by decide +kernel

/-- A trunk grant, one that a stalled classifier fills up, a sweep grant of a defined and of an undefined item, and a moment
without a decision. -/
theorem witness_GrantsStartTransactions :
    let t : State := { State.reset with fsq := List.replicate 16 ⟨request, false⟩ }
    let stuck : State := { t with dc := .stalled (waiting (.fieldQueue ⟨request, true⟩)) }
    let w := sweeping (running 1 none) State.reset
    let set : TableSet := { TableSet.powerOn with items := [(2, some ⟨5, 65, ⟨0, 0⟩⟩)] }
    (t.flc.state = .idle ∧ t.fp.change = none ∧ t.decideGrant = some (.trunk, t.la) ∧ t.dc.waitsForFieldQueue = none)
    ∧ (stuck.decideGrant = some (.trunk, t.la) ∧ stuck.fsq = ⟨request, false⟩ :: List.replicate 15 ⟨request, false⟩
      ∧ (List.replicate 15 (⟨request, false⟩ : FsqEntry)).length < 16)
    ∧ (w.decideGrant = some (.sweeps, { w.la with holder := .sweeps, counter := 8 }) ∧ w.nextSweep = some 2
      ∧ (w.ts.table w.ts.live).item (w.ss.get 2).cursor = none ∧ set.item 2 = some ⟨5, 65, ⟨0, 0⟩⟩)
    ∧ State.reset.decideGrant = none := by decide +kernel

/-- SENDING of a request and of a broadcast, with a settle time and without; the window running; SETTLING; a field line change
that waits. -/
theorem witness_TransactionsRunTheirCourse :
    let sending := onField .sending .stopped .hunt State.reset
    let broadcast : State := { sending with flc := { sending.flc with record := some (transaction true) } }
    let quick : State := { broadcast with config := { ConfigRecord.powerOn with settleTime := 0 } }
    (sending.flc.state = .sending ∧ sending.flc.record = some (transaction false) ∧ (transaction false).broadcast = false)
    ∧ ((transaction true).broadcast = true ∧ broadcast.config.settleTime ≠ 0 ∧ quick.config.settleTime = 0)
    ∧ ((onField .awaiting (.running 1) .hunt State.reset).flc.window = .running 1
      ∧ (onField .receiving (.running 1) .address State.reset).flc.state = .receiving)
    ∧ (onField .settling .stopped .hunt State.reset).flc.state = .settling
    ∧ ({ State.reset with fp := { State.reset.fp with change := some ⟨.r9600, 33⟩ } } : State).flc.state = .idle
    ∧ State.reset.fp.change = none := by decide +kernel

/-- An answer, a mismatch before and after the window's expiry, a bad telegram, and telegrams outside the reply phase. -/
theorem witness_FieldTelegramsAreJudged :
    let s := onField .awaiting (.running 20) .hunt State.reset
    let late := onField .receiving .expired .address State.reset
    (s.fp.driverEnable = false ∧ s.fp.framer.takeAll (lineChars 0x85 65 []) = (.hunt, [.good ⟨0x85, 65, []⟩])
      ∧ (s.fp.framer.takeAll (lineChars 0x85 65 []).dropLast).2 = [] ∧ s.flc.record = some (transaction false)
      ∧ s.flc.state = .awaiting)
    ∧ ((⟨0x85, 65, []⟩ : Telegram).replyFlag = true ∧ (⟨0x85, 65, []⟩ : Telegram).station = 5)
    ∧ (⟨0x05, 65, []⟩ : Telegram).replyFlag = false ∧ s.flc.window ≠ .expired
    ∧ (late.flc.window = .expired ∧ late.flc.state = .receiving ∧ late.fp.framer ≠ .hunt
      ∧ late.fp.framer.takeAll ((lineChars 0x84 65 []).drop 1) = (.hunt, [.good ⟨0x84, 65, []⟩]))
    ∧ s.fp.framer.takeAll [.byte 0x96, .broken] = (.hunt, [.malformed]) ∧ State.reset.flc.state = .idle
    ∧ (onField .settling .stopped .hunt State.reset).flc.state = .settling := by decide +kernel

theorem witness_BracketsOpenCloseAndExpire :
    (held 0x60 [0, 0]).atHead (mine 0x60 [0, 0]) [] ∧ (held 0x60 [0, 1]).atHead (mine 0x60 [0, 1]) []
    ∧ (held 0x60 [255, 255]).atHead (mine 0x60 [255, 255]) [] ∧ (held 0x61 []).atHead (mine 0x61 []) []
    ∧ ({ State.reset with la := { State.reset.la with bracket := some 1 } } : State).la.bracket = some 1
    ∧ ({ State.reset with la := ⟨.trunk, 8, some 1, 4, 3, some ⟨255, 9⟩⟩ } : State).la.notice = some ⟨255, 9⟩ :=
  ⟨held_atHead _ _, held_atHead _ _, held_atHead _ _, held_atHead _ _, rfl, rfl⟩

/-- SWEEP_LOAD's faults, as the obligation lists them. -/
def loadBad (m f : Byte) (count : Nat) (r q : Byte) (period : Nat) (x : Byte) : Bool := decide
  (3 < m.toNat ∨ count = 0 ∨ 256 < count ∨ 256 < f.toNat + count ∨ r = 0 ∨ 15 < q.toNat
    ∨ (1 ≤ period ∧ period ≤ 9) ∨ 1 < x.toNat)

/-- Each of the five commands on sweep 3, on a number over 3, and on sweep 2 in each state; SWEEP_LOAD at the ends of its
ranges and one beyond each. -/
theorem witness_SweepCommandsActOnOneContext :
    (∀ c ∈ ([0x41, 0x42, 0x43, 0x44] : List Byte), (held c [3]).atHead (mine c [3]) [] ∧ (held c [4]).atHead (mine c [4]) [])
    ∧ (held 0x40 [2, 3, 255, 0, 1, 255, 15, 0, 10, 1]).atHead (mine 0x40 [2, 3, 255, 0, 1, 255, 15, 0, 10, 1]) []
    ∧ (3 : Byte).toNat ≤ 3 ∧ 3 < (4 : Byte).toNat
    ∧ ¬loadBad 3 255 1 255 15 10 1 ∧ ¬loadBad 0 0 256 1 0 0 0 ∧ loadBad 4 0 1 1 0 0 0 ∧ loadBad 0 0 0 1 0 0 0
    ∧ loadBad 0 0 257 1 0 0 0 ∧ loadBad 0 255 2 1 0 0 0 ∧ loadBad 0 0 1 0 0 0 0 ∧ loadBad 0 0 1 1 16 0 0
    ∧ loadBad 0 0 1 1 0 1 0 ∧ loadBad 0 0 1 1 0 9 0 ∧ loadBad 0 0 1 1 0 0 2
    ∧ ((sweeping (running 1 none) (held 0x43 [2])).ss.get (Fin.ofNat 4 (2 : Byte).toNat)).outstanding = none
    ∧ ((sweeping (running 1 (some (2, .one))) (held 0x43 [2])).ss.get (Fin.ofNat 4 (2 : Byte).toNat)).state = .running
    ∧ ((held 0x42 [2]).ss.get 2).state ≠ .halted :=
  ⟨fun _ _ => ⟨held_atHead _ _, held_atHead _ _⟩, held_atHead _ _, by decide +kernel⟩

/-- A report that meets a pending stop, the silence limit, and each mode with either verdict, with one item left and more. -/
theorem witness_ReportsAreAppliedInOrder :
    1 ≤ (running 1 none).remaining ∧ 1 ≤ (running 3 none).remaining
    ∧ ({ running 1 none with stopPending := true } : Sweep).applyOutcome true false 5
      = { running 1 none with
          silenceRun := 1, state := .halted, reason := .stopped, stopStation := 5
          notice := some ⟨.stopped, 2, 1, 5, 0, false⟩ }
    ∧ (({ running 1 none with silenceLimit := 1 } : Sweep).applyOutcome true false 5).reason = .silent
    ∧ (({ running 1 none with silenceLimit := 2 } : Sweep).applyOutcome true false 5).reason = .complete
    ∧ (({ running 3 none with mode := .haltOnFalse } : Sweep).applyOutcome false false 5).reason = .qualFalse
    ∧ (({ running 1 none with mode := .seek } : Sweep).applyOutcome false true 5).remaining = 0
    ∧ (({ running 3 none with mode := .retry, retryLimit := 2 } : Sweep).applyOutcome false false 5).retryTally = 1
    ∧ (({ running 3 none with mode := .retry, retryLimit := 1 } : Sweep).applyOutcome false false 5).reason = .retryLimit
    ∧ (({ running 1 none with period := 10 } : Sweep).applyOutcome false true 5).periodTimer = some 10
    ∧ (({ running 1 none with rerun := true } : Sweep).applyOutcome false true 5).remaining = 3 := by decide +kernel

/-- A WAITING sweep; an assertion with no binding, with a bound sweep at rest and RUNNING, while disabled and while asserted. -/
theorem witness_TimersAndAttentionStartPasses :
    let enabled := fun b : Option SweepId =>
      { State.reset with config := { ConfigRecord.powerOn with attentionEnable := true, binding := b } }
    ((sweeping { Sweep.powerOn with state := .waiting, periodTimer := some 1 } State.reset).ss.get 2).state = .waiting
    ∧ ((enabled none).am.level = .released ∧ (enabled none).config.attentionEnable = true)
    ∧ ((enabled (some 2)).ss.get 2).state ≠ .running
    ∧ ((sweeping (running 1 none) (enabled (some 2))).ss.get 2).state = .running
    ∧ State.reset.config.attentionEnable = false
    ∧ ({ State.reset with am := ⟨0, false, .asserted⟩ } : State).am.level = .asserted := by decide +kernel

/-! ## The invariants at work: a state that meets each, with a command that steps -/

/-- Every invariant's hypotheses hold at reset with a command in the queue, and that step completes. -/
theorem witness_invariants :
    let s : State := { State.reset with pending := [.attentionAssertion] }
    s.QueuesBounded ∧ s.FieldLineConsistent ∧ s.SweepPositionsOk ∧ s.SweepTimersOk ∧ s.EditSetFree ∧ s.BetweenActs
      ∧ s.TablesCanonical ∧ s.TenureBounded ∧ s.AttentionConsistent ∧ s.HoldFollows ∧ s.Steady ∧ s.AccumulatorsInRange
      ∧ s.counters.bounded ∧ s.config.InRange ∧ s.mb.numbered ∧ ∃ t, step s = .next t := by
  refine ⟨?_, ?_, ?_, ?_, ?_, ?_, ⟨rfl, rfl, rfl⟩, ?_, ?_, ?_, ?_, ?_, ?_, ?_, ?_, ⟨_, rfl⟩⟩
  · constructor <;> first | decide | (intro _; decide)
  · constructor <;> decide
  · intro k
    fin_cases k <;> constructor <;> decide
  · intro k
    fin_cases k <;> constructor <;> decide
  · intro _; decide
  · constructor <;> intros <;> intro h <;> cases h
  · constructor <;> decide
  · constructor <;> decide
  · constructor <;> decide
  · constructor
    · intro _; rfl
    · intro _ h; exact absurd rfl h
    · intro _ h; cases h
    · intro h; exact absurd rfl h
    · intro h; cases h
  · constructor
    · intro _
      show Accumulator.powerOn.inRange
      unfold Accumulator.inRange; decide
    · intro _ _ h; cases h
    · intro _ _ h; cases h
  · intro k
    cases k <;> decide
  · constructor <;> decide
  · intro _ _ h; cases h

end Sys2Proof.Tests
end

/-! ## The comparison, position by position (R38, R39) -/

section
namespace Sys2Proof.Machine

/-- What the comparison reads at position `i`: the byte there, or the padding past the end (R39). -/
def paddedAt (bytes : List Byte) (i : Nat) : Nat := (bytes.getD i spaceByte).toNat

/-- Two sequences agree up to some position, and stand in `rel` there. -/
def FirstDifference (rel : Nat → Nat → Prop) (x y : Nat → Nat) : Prop :=
  ∃ i, (∀ j, j < i → x j = y j) ∧ rel (x i) (y i)

theorem paddedAt_tail (bytes : List Byte) : paddedAt bytes.tail = fun i => paddedAt bytes (i + 1) := by
  funext i
  cases bytes <;> simp [paddedAt]

theorem firstDifference_iff_succ (rel : Nat → Nat → Prop) (x y : Nat → Nat) :
    FirstDifference rel x y ↔
      rel (x 0) (y 0) ∨ x 0 = y 0 ∧ FirstDifference rel (fun i => x (i + 1)) (fun i => y (i + 1)) := by
  constructor
  · rintro ⟨_ | i, agree, differ⟩
    · exact .inl differ
    · exact .inr ⟨agree 0 i.succ_pos, i, fun j hj => agree (j + 1) (Nat.succ_lt_succ hj), differ⟩
  · rintro (differ | ⟨same, i, agree, differ⟩)
    · exact ⟨0, fun j hj => absurd hj j.not_lt_zero, differ⟩
    · exact ⟨i + 1, Nat.and_forall_add_one.mp ⟨fun _ => same, fun j hj => agree j (Nat.lt_of_succ_lt_succ hj)⟩, differ⟩

/-- The comparison decides at position 0, or goes on with what follows it on both sides. -/
theorem compareBytes_eq_head_tail (span pattern : List Byte) :
    compareBytes span pattern =
      if paddedAt span 0 < paddedAt pattern 0 then .lt
      else if paddedAt pattern 0 < paddedAt span 0 then .gt
      else compareBytes span.tail pattern.tail := by
  cases span with
  | nil =>
    cases pattern with
    | nil => simp
    | cons y ys => simp [compareBytes, padTo, comparePairs, paddedAt, List.replicate_succ]
  | cons x xs =>
    cases pattern with
    | nil => simp [compareBytes, padTo, comparePairs, paddedAt, List.replicate_succ]
    | cons y ys => simp [compareBytes, padTo, comparePairs, paddedAt]

theorem compareBytes_iff_of_length_le (n : Nat) (span pattern : List Byte) (hs : span.length ≤ n)
    (hp : pattern.length ≤ n) :
    (compareBytes span pattern = .eq ↔ ∀ i, paddedAt span i = paddedAt pattern i)
    ∧ (compareBytes span pattern = .lt ↔ FirstDifference (· < ·) (paddedAt span) (paddedAt pattern))
    ∧ (compareBytes span pattern = .gt ↔ FirstDifference (· > ·) (paddedAt span) (paddedAt pattern)) := by
  induction n generalizing span pattern with
  | zero =>
    obtain rfl := List.length_eq_zero_iff.mp (Nat.le_zero.mp hs)
    obtain rfl := List.length_eq_zero_iff.mp (Nat.le_zero.mp hp)
    simp [compareBytes, comparePairs, padTo, FirstDifference]
  | succ n ih =>
    obtain ⟨heq, hlt, hgt⟩ := ih span.tail pattern.tail (by simp; omega) (by simp; omega)
    simp only [paddedAt_tail] at heq hlt hgt
    rw [compareBytes_eq_head_tail, firstDifference_iff_succ (· < ·), firstDifference_iff_succ (· > ·),
      ← Nat.and_forall_add_one, ← heq, ← hlt, ← hgt]
    rcases Nat.lt_trichotomy (paddedAt span 0) (paddedAt pattern 0) with below | same | above
    · simp [below, below.ne, below.not_gt]
    · simp [same]
    · simp [above, above.ne', above.not_gt]

theorem runMatch_of_some {T : TableSet} {r : ActionRecord} {payload : List Byte} {x : StageResults} {m : MatchStage}
    (h : r.matching = some m) :
    runMatch T r payload x =
      { x with matched := some (compareBytes (m.span.clip payload) (T.patternRun m.pattern)) } := by
  simp only [runMatch, h]

theorem runMatch_of_none {T : TableSet} {r : ActionRecord} {payload : List Byte} {x : StageResults}
    (h : r.matching = none) : runMatch T r payload x = x := by
  simp only [runMatch, h]

/-- Settles O34: the comparison by induction on the length of the longer side, the match stage by its two cases. -/
theorem comparisonPadsWithSpaces : Obligations.ComparisonPadsWithSpaces :=
  ⟨fun span pattern => compareBytes_iff_of_length_le (max span.length pattern.length) span pattern
      (Nat.le_max_left ..) (Nat.le_max_right ..),
    fun _ _ _ _ => ⟨fun _ => runMatch_of_some, runMatch_of_none⟩⟩

end Sys2Proof.Machine
end

/-! ## The decimal reader (R44, R45) -/

section
namespace Sys2Proof.Machine

theorem dropWhile_spaces_append (n : Nat) {bytes : List Byte} (h : bytes.head? ≠ some spaceByte) :
    (List.replicate n spaceByte ++ bytes).dropWhile (· == spaceByte) = bytes := by
  rw [List.dropWhile_append_of_pos (by simp)]
  cases bytes with
  | nil => rfl
  | cons b bs => exact List.dropWhile_cons_of_neg (by simpa using h)

theorem takeWhile_part_append {part rest : List Byte} (hpart : ∀ b ∈ part, b ≠ spaceByte)
    (hrest : rest = [] ∨ rest.head? = some spaceByte) :
    (part ++ rest).takeWhile (· != spaceByte) = part := by
  rw [List.takeWhile_append_of_pos (by simpa using hpart)]
  cases rest with
  | nil => simp
  | cons b bs => simp_all

theorem takeSign_append {sign tail : List Byte} (hsign : sign ∈ ([[], [0x2B], [0x2D]] : List (List Byte)))
    (htail : sign = [] → tail.head? ≠ some 0x2B ∧ tail.head? ≠ some 0x2D) :
    takeSign (sign ++ tail) = (decide (sign = [0x2D]), tail) := by
  simp only [List.mem_cons, List.not_mem_nil, or_false] at hsign
  rcases hsign with rfl | rfl | rfl
  · cases tail with
    | nil => rfl
    | cons b bs =>
      obtain ⟨plus, minus⟩ := htail rfl
      simp_all [takeSign]
  · simp [takeSign]
  · simp [takeSign]

/-- The reader skips the spaces, takes the sign and reads the number part alone (R44). -/
theorem readDecimal_of_parts {sign part rest : List Byte} (d spaces : Nat)
    (hsign : sign ∈ ([[], [0x2B], [0x2D]] : List (List Byte))) (hrest : rest = [] ∨ rest.head? = some spaceByte)
    (hpart : ∀ b ∈ part, b ≠ spaceByte)
    (hunsigned : sign = [] → part.head? ≠ some 0x2B ∧ part.head? ≠ some 0x2D)
    (hends : part ≠ [] ∨ sign ≠ [] ∨ rest = []) :
    readDecimal d (List.replicate spaces spaceByte ++ sign ++ part ++ rest) =
      if numberPartOk part = true ∧ magnitude d part ≤ 999999999 then
        some (if sign = [0x2D] then -(magnitude d part : Int) else (magnitude d part : Int))
      else none := by
  have first : (sign ++ (part ++ rest)).head? ≠ some spaceByte := by
    simp only [List.mem_cons, List.not_mem_nil, or_false] at hsign
    rcases hsign with rfl | rfl | rfl
    · cases part with
      | nil => simp_all
      | cons b bs => simpa using hpart b List.mem_cons_self
    · simp [spaceByte]
    · simp [spaceByte]
  have unsigned : sign = [] → (part ++ rest).head? ≠ some 0x2B ∧ (part ++ rest).head? ≠ some 0x2D := by
    intro h
    cases part with
    | nil => simp_all
    | cons b bs => exact hunsigned h
  simp [readDecimal, dropWhile_spaces_append spaces first, takeSign_append hsign unsigned,
    takeWhile_part_append hpart hrest]

theorem isDigit_iff (b : Byte) : isDigit b = true ↔ 0x30 ≤ b.toNat ∧ b.toNat ≤ 0x39 := by
  simp [isDigit]

theorem isDigit_stopByte : isDigit stopByte = false := by decide

/-- In a part of digits and full stops, the digits are the bytes that are no full stop. -/
theorem filter_isDigit {part : List Byte} (h : ∀ b ∈ part.filter (· ≠ stopByte), isDigit b = true) :
    part.filter isDigit = part.filter (· ≠ stopByte) := by
  refine List.filter_congr fun b hb => ?_
  by_cases hstop : b = stopByte
  · simp [hstop, isDigit_stopByte]
  · simpa [hstop] using h b (by simp [hb, hstop])

theorem numberPartOk_iff (part : List Byte) :
    numberPartOk part = true ↔
      (∀ b ∈ part.filter (· ≠ stopByte), isDigit b = true) ∧ (part.filter (· = stopByte)).length ≤ 1
        ∧ 1 ≤ (part.filter (· ≠ stopByte)).length ∧ (part.filter (· ≠ stopByte)).length ≤ 9 := by
  have alphabet : (∀ b ∈ part, isDigit b = true ∨ b = stopByte) ↔ ∀ b ∈ part.filter (· ≠ stopByte), isDigit b = true := by
    simp [or_iff_not_imp_right]
  simp only [numberPartOk, Bool.and_eq_true, List.all_eq_true, Bool.or_eq_true, beq_iff_eq, decide_eq_true_eq, alphabet,
    and_assoc]
  refine and_congr_right fun digits => ?_
  rw [filter_isDigit digits]
  rfl

theorem magnitude_eq (d : Nat) {part : List Byte} (h : ∀ b ∈ part.filter (· ≠ stopByte), isDigit b = true) :
    magnitude d part =
      let whole := (part.filter (· ≠ stopByte)).foldl (fun n b => 10 * n + (b.toNat - 0x30)) 0
      let fraction := (part.dropWhile (· ≠ stopByte)).length - 1
      if fraction ≤ d then whole * 10 ^ (d - fraction) else whole / 10 ^ (fraction - d) := by
  have stop : (fun b : Byte => b != stopByte) = fun b => decide (b ≠ stopByte) := by
    funext b
    exact Bool.eq_iff_iff.mpr (by simp)
  simp only [magnitude, digitsValue, fractionDigits, filter_isDigit h, List.length_drop, stop]

/-- Settles O37: the field's parts are the reader's, and of a well formed part digits and magnitude are as stated. -/
theorem decimalReaderReadsOneNumber : Obligations.DecimalReaderReadsOneNumber := by
  intro d spaces sign part rest hsign hrest hpart hunsigned hends field isNumeral stops digits wellFormed whole fraction
    value
  have read : readDecimal d field = _ := readDecimal_of_parts d spaces hsign hrest hpart hunsigned hends
  have numerals : (∀ b ∈ digits, isNumeral b) ↔ ∀ b ∈ digits, isDigit b = true :=
    forall₂_congr fun b _ => (isDigit_iff b).symm
  have formed : numberPartOk part = true ↔ wellFormed :=
    (numberPartOk_iff part).trans (and_congr_left' numerals.symm)
  have valued : wellFormed → magnitude d part = value := fun h => magnitude_eq d (numerals.mp h.1)
  refine ⟨fun h bound => ?_, fun h large => ?_, fun h => ?_⟩
  · rw [read, if_pos ⟨formed.mpr h, by rwa [valued h]⟩, valued h]
    rfl
  · rw [read, if_neg fun ok => absurd ok.2 (by rw [valued h]; exact Nat.not_le.mpr large)]
  · rw [read, if_neg fun ok => h (formed.mp ok.1)]

end Sys2Proof.Machine
end

/-! ## The image of an action record (R53 to R56, R179) -/

section
namespace Sys2Proof.Machine

/-! ### Numbers inside an image (R178) -/

/-- The unsigned number in one byte of an image. -/
abbrev num1 (image : List Byte) (k : Nat) : Nat := (fieldByte image k).toNat

/-- The unsigned number in two bytes of an image. -/
abbrev num2 (image : List Byte) (k : Nat) : Nat := 256 * num1 image k + num1 image (k + 1)

/-- The signed number in two bytes of an image. -/
abbrev signed2 (image : List Byte) (k : Nat) : Int := (fieldByte image k ++ fieldByte image (k + 1)).toInt

/-- The signed number in four bytes of an image. -/
abbrev signed4 (image : List Byte) (k : Nat) : Int :=
  (fieldByte image k ++ fieldByte image (k + 1) ++ fieldByte image (k + 2) ++ fieldByte image (k + 3)).toInt

theorem field_succ {image : List Byte} {k : Nat} (h : k < image.length) (n : Nat) :
    field image k (n + 1) = fieldByte image k :: field image (k + 1) n := by
  rw [field, List.drop_eq_getElem_cons h, List.take_succ_cons, fieldByte, List.getD_eq_getElem _ _ h]
  rfl

@[simp] theorem field_zero (image : List Byte) (k : Nat) : field image k 0 = [] := by
  simp [field]

theorem toNat_append_byte {n : Nat} (w : BitVec n) (b : Byte) : (w ++ b).toNat = 256 * w.toNat + b.toNat := by
  rw [BitVec.toNat_append, ← Nat.shiftLeft_add_eq_or_of_lt b.isLt, Nat.shiftLeft_eq]
  omega

theorem intOf_eq_toInt {n : Nat} (w : BitVec n) {bytes : List Byte} (hn : n = 8 * bytes.length)
    (h : natOf bytes = w.toNat) : intOf bytes = w.toInt := by
  subst hn
  rw [intOf, h, BitVec.toInt_eq_toNat_cond, pow_mul]
  norm_num

theorem fieldNat_one {image : List Byte} {k : Nat} (h : k < image.length) : fieldNat image k 1 = num1 image k := by
  simp [fieldNat, field_succ h, natOf]

theorem fieldNat_two {image : List Byte} {k : Nat} (h : k + 1 < image.length) : fieldNat image k 2 = num2 image k := by
  simp [fieldNat, field_succ h, field_succ (Nat.lt_of_succ_lt h), natOf]

theorem fieldInt_one {image : List Byte} {k : Nat} (h : k < image.length) :
    fieldInt image k 1 = (fieldByte image k).toInt := by
  rw [fieldInt, field_succ h, field_zero]
  exact intOf_eq_toInt _ rfl (by simp [natOf])

theorem fieldInt_two {image : List Byte} {k : Nat} (h : k + 1 < image.length) :
    fieldInt image k 2 = signed2 image k := by
  rw [fieldInt, field_succ (by omega), field_succ h, field_zero]
  exact intOf_eq_toInt _ rfl (by simp [natOf, toNat_append_byte])

theorem fieldInt_four {image : List Byte} {k : Nat} (h : k + 3 < image.length) :
    fieldInt image k 4 = signed4 image k := by
  rw [fieldInt, field_succ (by omega), field_succ (by omega), field_succ (by omega), field_succ h, field_zero]
  exact intOf_eq_toInt _ rfl (by simp [natOf, toNat_append_byte])

/-- Some byte from `lo` to `hi` of an image is not 0. -/
def BytesLeft (image : List Byte) (lo hi : Nat) : Prop := ∃ k, lo ≤ k ∧ k ≤ hi ∧ fieldByte image k ≠ 0

theorem not_fieldZero_iff {image : List Byte} {lo n : Nat} (h : lo + n < image.length) :
    ¬fieldZero image lo (n + 1) = true ↔ BytesLeft image lo (lo + n) := by
  induction n generalizing lo with
  | zero =>
    rw [fieldZero, field_succ (k := lo) h, field_zero]
    constructor
    · intro left
      exact ⟨lo, le_rfl, le_rfl, by simpa using left⟩
    · rintro ⟨k, low, high, left⟩
      obtain rfl := Nat.le_antisymm high low
      simpa using left
  | succ n ih =>
    have rest := ih (lo := lo + 1) (by omega)
    rw [fieldZero, field_succ (by omega), List.all_cons, Bool.and_eq_true, not_and_or, ← fieldZero, rest]
    constructor
    · rintro (left | ⟨k, low, high, left⟩)
      · exact ⟨lo, le_rfl, by omega, by simpa using left⟩
      · exact ⟨k, by omega, by omega, left⟩
    · rintro ⟨k, low, high, left⟩
      rcases Nat.eq_or_lt_of_le low with rfl | above
      · exact .inl (by simpa using left)
      · exact .inr ⟨k, above, by omega, left⟩

/-! ### The stages, each in its range (R54) -/

/-- A reader that refuses exactly where `bad` holds, and reads `v` elsewhere. -/
def Reads {α : Type} (read : Option α) (bad : Prop) (v : α) : Prop := (bad → read = none) ∧ (¬bad → read = some v)

theorem reads_ite {α : Type} (bad : Prop) [Decidable bad] (v : α) : Reads (if bad then none else some v) bad v :=
  ⟨fun h => if_pos h, fun h => if_neg h⟩

theorem Reads.congr {α : Type} {read : Option α} {bad bad' : Prop} {v : α} (h : Reads read bad v) (hbad : bad ↔ bad') :
    Reads read bad' v :=
  propext hbad ▸ h

theorem bind_ite_none {α β : Type} (p : Prop) [Decidable p] (v : α) (f : α → Option β) :
    ((if p then none else some v) >>= f) = if p then none else f v := by
  split <;> rfl

theorem bind_eq_none_iff_or {α β : Type} {x : Option α} {f : α → Option β} {p q : Prop} (hx : x = none ↔ p)
    (hf : ∀ a, f a = none ↔ q) : (x >>= f) = none ↔ p ∨ q := by
  rw [← hx]
  cases x with
  | none => simp
  | some a => simpa using hf a

theorem ite_none_ite_none {α : Type} (p q : Prop) [Decidable p] [Decidable q] (x : Option α) :
    (if p then none else if q then none else x) = if p ∨ q then none else x := by
  by_cases p <;> simp [*]

/-- An offset and a length that give no payload span. -/
def SpanBad (image : List Byte) (k : Nat) : Prop :=
  239 < num1 image k ∨ 240 < num1 image (k + 1) ∨ 240 < num1 image k + num1 image (k + 1)

/-- A match stage out of its range: its payload span, or its run of the pattern memory. -/
def MatchBad (image : List Byte) : Prop :=
  SpanBad image 5 ∨ 2047 < num2 image 7 ∨ 240 < num1 image 9 ∨ 2048 < num2 image 7 + num1 image 9

/-- A translate stage out of its range: its table, or its payload span. -/
def TranslateBad (image : List Byte) : Prop := 3 < num1 image 10 ∨ SpanBad image 11

/-- An extract stage out of its range: its payload span, delimiter set, field number or decimals. -/
def ExtractBad (image : List Byte) : Prop :=
  SpanBad image 13 ∨ 7 < num1 image 15 ∨ 15 < num1 image 16 ∨ 6 < num1 image 17

/-- An adjust constant out of its range. -/
def AdjustBad (image : List Byte) : Prop := signed4 image 18 < -999999999 ∨ 999999999 < signed4 image 18

/-- Limits that cross, the one consistency fault of R55 that is read with its stage. -/
def LimitBad (image : List Byte) : Prop := signed4 image 26 < signed4 image 22

/-- Reserved bits set in the step byte (section 12.6). -/
def ReservedBad (image : List Byte) : Prop := 1 < num1 image 31

/-- An accumulate stage out of its range: its first accumulator, weight or scale. -/
def AccumulateBad (image : List Byte) : Prop :=
  31 < num1 image 30 ∨ signed2 image 32 < -32767 ∨ (fieldByte image 34).toInt < -15
    ∨ 1 < (fieldByte image 34).toInt

theorem readMatch_reads {image : List Byte} (h : image.length = 35) :
    Reads (readMatch image) (MatchBad image) ⟨⟨num1 image 5, num1 image 6⟩, ⟨num2 image 7, num1 image 9⟩⟩ := by
  rw [readMatch, Span.ofBytes, patternSpanOf, fieldNat_two (by omega), fieldNat_one (by omega), bind_ite_none,
    bind_ite_none, ite_none_ite_none]
  exact reads_ite _ _

theorem readTranslate_reads {image : List Byte} (h : image.length = 35) :
    Reads (readTranslate image) (TranslateBad image) ⟨num1 image 10, ⟨num1 image 11, num1 image 12⟩⟩ := by
  rw [readTranslate, Span.ofBytes, fieldNat_one (by omega), bind_ite_none, ite_none_ite_none]
  exact (reads_ite _ _).congr or_comm

theorem readExtract_reads {image : List Byte} (h : image.length = 35) :
    Reads (readExtract image) (ExtractBad image)
      ⟨⟨num1 image 13, num1 image 14⟩, num1 image 15, num1 image 16, num1 image 17⟩ := by
  rw [readExtract, Span.ofBytes, fieldNat_one (by omega), fieldNat_one (by omega), fieldNat_one (by omega),
    bind_ite_none, ite_none_ite_none]
  exact reads_ite _ _

theorem readAdjust_reads {image : List Byte} (h : image.length = 35) :
    Reads (readAdjust image) (AdjustBad image) (signed4 image 18) := by
  rw [readAdjust, fieldInt_four (by omega)]
  exact reads_ite _ _

theorem readLimit_reads {image : List Byte} (h : image.length = 35) :
    Reads (readLimit image) (LimitBad image) ⟨signed4 image 22, signed4 image 26⟩ := by
  rw [readLimit, fieldInt_four (by omega), fieldInt_four (by omega)]
  exact reads_ite _ _

theorem readFlag0_eq (b : Byte) : readFlag0 b = if 1 < b.toNat then none else some (b.toNat == 1) := by
  refine ite_congr rfl (fun _ => rfl) fun small => congrArg some ?_
  have small : b = 0 ∨ b = 1 := by bv_omega
  rcases small with rfl | rfl <;> rfl

theorem readAccumulate_reads {image : List Byte} (h : image.length = 35) :
    Reads (readAccumulate image) (ReservedBad image ∨ AccumulateBad image)
      ⟨num1 image 30, num1 image 31 == 1, signed2 image 32, (fieldByte image 34).toInt⟩ := by
  rw [readAccumulate, readFlag0_eq, fieldNat_one (by omega), fieldInt_two (by omega), fieldInt_one (by omega),
    bind_ite_none, ite_none_ite_none]
  exact reads_ite _ _

/-! ### The codes -/

theorem Condition.ofByte_eq_none_iff (b : Byte) : Condition.ofByte b = none ↔ 16 < b.toNat := by
  unfold Condition.ofByte
  split <;> simp_all
  omega

theorem Condition.code_of_ofByte {b : Byte} {c : Condition} (h : Condition.ofByte b = some c) : c.code = b := by
  unfold Condition.ofByte at h
  split at h <;> cases h <;> exact BitVec.eq_of_toNat_eq (Eq.symm ‹_›)

theorem Disposition.ofByte_eq_none_iff (b : Byte) : Disposition.ofByte b = none ↔ 3 < b.toNat := by
  unfold Disposition.ofByte
  split <;> simp_all
  omega

theorem Disposition.code_of_ofByte {b : Byte} {x : Disposition} (h : Disposition.ofByte b = some x) : x.code = b := by
  unfold Disposition.ofByte at h
  split at h <;> cases h <;> exact BitVec.eq_of_toNat_eq (Eq.symm ‹_›)

/-- What the condition tests, by its code (R56, R73). -/
theorem Condition.served_iff (c : Condition) (matching limit extract accumulate : Bool) :
    c.served matching limit extract accumulate = true ↔
      (6 ≤ c.code.toNat ∧ c.code.toNat ≤ 9 → matching = true) ∧ (2 ≤ c.code.toNat ∧ c.code.toNat ≤ 5 → limit = true)
        ∧ (10 ≤ c.code.toNat ∧ c.code.toNat ≤ 12 → extract = true)
        ∧ (13 ≤ c.code.toNat ∧ c.code.toNat ≤ 14 → accumulate = true) := by
  cases c <;> simp [served, code]

/-! ### A record read from its parts -/

/-- Bit `k` of the first byte. -/
abbrev Flag (image : List Byte) (k : Nat) : Prop := (fieldByte image 0).getLsbD k = true

/-- A stage is refused: present with a fault of its own, or absent with bytes left (R179). -/
def StageRefused (image : List Byte) (flag lo hi : Nat) (bad : Prop) : Prop :=
  Flag image flag ∧ bad ∨ ¬Flag image flag ∧ BytesLeft image lo hi

section
variable {α : Type} {image : List Byte} {flag lo n : Nat} {read : Option α} {bad : Prop} {v : α}

theorem readStage_eq_none_iff (hread : Reads read bad v) (h : lo + n < image.length) :
    readStage ((fieldByte image 0).getLsbD flag) image lo (n + 1) read = none ↔
      StageRefused image flag lo (lo + n) bad := by
  rw [StageRefused, ← not_fieldZero_iff h, readStage]
  by_cases present : (fieldByte image 0).getLsbD flag = true
  · by_cases fault : bad
    · simp [Flag, present, fault, hread.1 fault]
    · simp [Flag, present, fault, hread.2 fault]
  · simp [Flag, present]

theorem readStage_eq_some {x : Option α} (hread : Reads read bad v)
    (h : readStage ((fieldByte image 0).getLsbD flag) image lo n read = some x) :
    x = if Flag image flag then some v else none := by
  unfold readStage at h
  split at h
  · next present =>
    by_cases fault : bad
    · simp [hread.1 fault] at h
    · simpa [Flag, present, hread.2 fault] using h.symm
  · next absent =>
    split at h
    · simpa [Flag, absent] using h.symm
    · cases h

end

/-- An image that no record is read from: a part of it is refused. -/
theorem readRecord_eq_none_iff {image : List Byte} (h : image.length = 35) :
    readRecord image = none ↔
      16 < num1 image 2 ∨ 3 < num1 image 3 ∨ 3 < num1 image 4 ∨ StageRefused image 5 5 9 (MatchBad image)
        ∨ StageRefused image 4 10 12 (TranslateBad image) ∨ StageRefused image 3 13 17 (ExtractBad image)
        ∨ StageRefused image 2 18 21 (AdjustBad image) ∨ StageRefused image 1 22 29 (LimitBad image)
        ∨ StageRefused image 0 30 34 (ReservedBad image ∨ AccumulateBad image) ∨ 7 < num1 image 1 := by
  unfold readRecord
  refine bind_eq_none_iff_or (Condition.ofByte_eq_none_iff _) fun _ =>
    bind_eq_none_iff_or (Disposition.ofByte_eq_none_iff _) fun _ =>
    bind_eq_none_iff_or (Disposition.ofByte_eq_none_iff _) fun _ =>
    bind_eq_none_iff_or (readStage_eq_none_iff (readMatch_reads h) (by omega)) fun _ =>
    bind_eq_none_iff_or (readStage_eq_none_iff (readTranslate_reads h) (by omega)) fun _ =>
    bind_eq_none_iff_or (readStage_eq_none_iff (readExtract_reads h) (by omega)) fun _ =>
    bind_eq_none_iff_or (readStage_eq_none_iff (readAdjust_reads h) (by omega)) fun _ =>
    bind_eq_none_iff_or (readStage_eq_none_iff (readLimit_reads h) (by omega)) fun _ =>
    bind_eq_none_iff_or (readStage_eq_none_iff (readAccumulate_reads h) (by omega)) fun _ => ?_
  simp [fieldNat_one (show 1 < image.length by omega)]

/-- The record that the bytes of an image spell. -/
structure Spells (image : List Byte) (r : ActionRecord) : Prop where
  urgent : r.urgent = true ↔ Flag image 6
  repeats : r.repeats = num1 image 1
  condition : r.condition.code = fieldByte image 2
  onTrue : r.onTrue.code = fieldByte image 3
  onFalse : r.onFalse.code = fieldByte image 4
  matching : r.matching =
    if Flag image 5 then some ⟨⟨num1 image 5, num1 image 6⟩, ⟨num2 image 7, num1 image 9⟩⟩ else none
  translate : r.translate = if Flag image 4 then some ⟨num1 image 10, ⟨num1 image 11, num1 image 12⟩⟩ else none
  extract : r.extract =
    if Flag image 3 then some ⟨⟨num1 image 13, num1 image 14⟩, num1 image 15, num1 image 16, num1 image 17⟩ else none
  adjust : r.adjust = if Flag image 2 then some (signed4 image 18) else none
  limit : r.limit = if Flag image 1 then some ⟨signed4 image 22, signed4 image 26⟩ else none
  accumulate : r.accumulate =
    if Flag image 0 then some ⟨num1 image 30, num1 image 31 == 1, signed2 image 32, (fieldByte image 34).toInt⟩
    else none

theorem spells_of_readRecord {image : List Byte} {r : ActionRecord} (h : image.length = 35)
    (hr : readRecord image = some r) : Spells image r := by
  simp only [readRecord, Option.bind_eq_bind, Option.bind_eq_some_iff,
    fieldNat_one (show 1 < image.length by omega)] at hr
  obtain ⟨condition, hcondition, onTrue, honTrue, onFalse, honFalse, matching, hmatching, translate, htranslate, extract,
    hextract, adjust, hadjust, limit, hlimit, accumulate, haccumulate, hr⟩ := hr
  split at hr
  · cases hr
  · cases hr
    exact {
      urgent := Iff.rfl
      repeats := rfl
      condition := Condition.code_of_ofByte hcondition
      onTrue := Disposition.code_of_ofByte honTrue
      onFalse := Disposition.code_of_ofByte honFalse
      matching := readStage_eq_some (readMatch_reads h) hmatching
      translate := readStage_eq_some (readTranslate_reads h) htranslate
      extract := readStage_eq_some (readExtract_reads h) hextract
      adjust := readStage_eq_some (readAdjust_reads h) hadjust
      limit := readStage_eq_some (readLimit_reads h) hlimit
      accumulate := readStage_eq_some (readAccumulate_reads h) haccumulate }

/-! ### What refuses an image -/

/-- Some field of a stage that is present, or of the record itself, is out of its range (R54). -/
def OutOfRange (image : List Byte) : Prop :=
  (Flag image 5 ∧ MatchBad image) ∨ (Flag image 4 ∧ TranslateBad image) ∨ (Flag image 3 ∧ ExtractBad image)
    ∨ (Flag image 2 ∧ AdjustBad image) ∨ (Flag image 0 ∧ AccumulateBad image) ∨ 7 < num1 image 1 ∨ 16 < num1 image 2
    ∨ 3 < num1 image 3 ∨ 3 < num1 image 4

/-- A reserved bit is set, or a stage that is absent left a byte (R179). -/
def ReservedLeft (image : List Byte) : Prop :=
  (Flag image 0 ∧ ReservedBad image) ∨ (¬Flag image 5 ∧ BytesLeft image 5 9) ∨ (¬Flag image 4 ∧ BytesLeft image 10 12)
    ∨ (¬Flag image 3 ∧ BytesLeft image 13 17) ∨ (¬Flag image 2 ∧ BytesLeft image 18 21)
    ∨ (¬Flag image 1 ∧ BytesLeft image 22 29) ∨ (¬Flag image 0 ∧ BytesLeft image 30 34)

theorem readRecord_eq_none_iff_faulty {image : List Byte} (h : image.length = 35) :
    readRecord image = none ↔ OutOfRange image ∨ (Flag image 1 ∧ LimitBad image) ∨ ReservedLeft image := by
  rw [readRecord_eq_none_iff h]
  simp only [StageRefused, OutOfRange, ReservedLeft, and_or_left]
  exact iff_of_eq (by ac_rfl)

/-- The record is inconsistent within itself (R55). -/
def Inconsistent (image : List Byte) : Prop :=
  (¬Flag image 3 ∧ (Flag image 2 ∨ Flag image 1 ∨ Flag image 0 ∨ 0 < num1 image 1))
    ∨ (Flag image 0 ∧ num1 image 31 = 1 ∧ 31 < num1 image 30 + num1 image 1)
    ∨ (Flag image 3 ∧ 15 < num1 image 16 + num1 image 1) ∨ (Flag image 1 ∧ LimitBad image)

theorem forall_ite_eq_some {α : Type} (p : Prop) [Decidable p] (v : α) (q : α → Prop) :
    (∀ a, (if p then some v else none) = some a → q a) ↔ (p → q v) := by
  split <;> simp [*]

theorem ActionRecord.consistent_iff (r : ActionRecord) :
    r.consistent = true ↔
      (r.extract = none → r.adjust = none ∧ r.limit = none ∧ r.accumulate = none ∧ r.repeats = 0)
        ∧ (∀ a, r.accumulate = some a → a.step = true → a.base + r.repeats ≤ 31)
        ∧ (∀ e, r.extract = some e → e.field + r.repeats ≤ 15) := by
  unfold consistent
  cases r.extract with
  | none => cases r.accumulate <;> simp [and_assoc]
  | some e =>
    cases r.accumulate with
    | none => simp
    | some a => cases step : a.step <;> simp [step, and_comm]

/-- Of a record that was read, whose limits do not cross, the model's check asks for the rest of R55. -/
theorem Spells.consistent_iff {image : List Byte} {r : ActionRecord} (h : Spells image r)
    (hlimit : ¬(Flag image 1 ∧ LimitBad image)) : r.consistent = true ↔ ¬Inconsistent image := by
  simp only [ActionRecord.consistent_iff, h.extract, h.adjust, h.limit, h.accumulate, h.repeats, Inconsistent, hlimit,
    forall_ite_eq_some, ite_eq_right_iff, reduceCtorEq, imp_false, ← Nat.not_lt, Nat.pos_iff_ne_zero, beq_iff_eq,
    or_false, not_or, not_and, ne_eq, not_not]

/-- The condition tests a stage that is absent (R56). -/
def Unserved (image : List Byte) : Prop :=
  (¬Flag image 5 ∧ 6 ≤ num1 image 2 ∧ num1 image 2 ≤ 9) ∨ (¬Flag image 1 ∧ 2 ≤ num1 image 2 ∧ num1 image 2 ≤ 5)
    ∨ (¬Flag image 3 ∧ 10 ≤ num1 image 2 ∧ num1 image 2 ≤ 12)
    ∨ (¬Flag image 0 ∧ 13 ≤ num1 image 2 ∧ num1 image 2 ≤ 14)

theorem Spells.served_iff {image : List Byte} {r : ActionRecord} (h : Spells image r) :
    r.condition.served r.matching.isSome r.limit.isSome r.extract.isSome r.accumulate.isSome = true ↔
      ¬Unserved image := by
  simp only [Condition.served_iff, h.condition, h.matching, h.limit, h.extract, h.accumulate, Unserved,
    Option.isSome_ite, not_or, not_and', not_not]

/-! ### The image as a whole -/

theorem recordOfImage_of_undefined {image : List Byte} (h : ¬Flag image 7) : recordOfImage image = some none :=
  if_neg h

theorem recordOfImage_of_unread {image : List Byte} (h : Flag image 7) (hr : readRecord image = none) :
    recordOfImage image = none := by
  rw [recordOfImage, if_pos h, hr]

/-- A record that was read is accepted if it is consistent and its condition is served. -/
theorem recordOfImage_of_spells {image : List Byte} {r : ActionRecord} (h : Flag image 7)
    (hr : readRecord image = some r) (hs : Spells image r) (hlimit : ¬(Flag image 1 ∧ LimitBad image)) :
    (Inconsistent image ∨ Unserved image → recordOfImage image = none)
    ∧ (¬(Inconsistent image ∨ Unserved image) → recordOfImage image = some (some r)) := by
  have accepted : (r.consistent && r.condition.served r.matching.isSome r.limit.isSome r.extract.isSome
      r.accumulate.isSome) = true ↔ ¬(Inconsistent image ∨ Unserved image) := by
    rw [Bool.and_eq_true, hs.consistent_iff hlimit, hs.served_iff, not_or]
  simp only [recordOfImage, if_pos h, hr]
  exact ⟨fun fault => if_neg fun ok => accepted.mp ok fault, fun fine => if_pos (accepted.mpr fine)⟩

/-- A defined image is refused for one of the faults of R54, R55, R56 and R179, and else gives the record it spells. -/
theorem recordOfImage_refused_or_spells {image : List Byte} (hlength : image.length = 35) (h : Flag image 7) :
    (OutOfRange image ∨ Inconsistent image ∨ Unserved image ∨ ReservedLeft image → recordOfImage image = none)
    ∧ (¬(OutOfRange image ∨ Inconsistent image ∨ Unserved image ∨ ReservedLeft image) →
      ∃ r, recordOfImage image = some (some r) ∧ Spells image r) := by
  have unread := readRecord_eq_none_iff_faulty hlength
  cases hr : readRecord image with
  | none =>
    refine ⟨fun _ => recordOfImage_of_unread h hr, fun fine => absurd (unread.mp hr) ?_⟩
    rintro (range | limit | reserved)
    · exact fine (.inl range)
    · exact fine (.inr (.inl (.inr (.inr (.inr limit)))))
    · exact fine (.inr (.inr (.inr reserved)))
  | some r =>
    have read : ¬(OutOfRange image ∨ (Flag image 1 ∧ LimitBad image) ∨ ReservedLeft image) := by
      rw [← unread, hr]
      exact Option.some_ne_none r
    have spells := spells_of_readRecord hlength hr
    obtain ⟨refused, accepted⟩ := recordOfImage_of_spells h hr spells (fun limit => read (.inr (.inl limit)))
    refine ⟨?_, fun fine => ⟨r, accepted ?_, spells⟩⟩
    · rintro (range | inconsistent | unserved | reserved)
      · exact absurd (.inl range) read
      · exact refused (.inl inconsistent)
      · exact refused (.inr unserved)
      · exact absurd (.inr (.inr reserved)) read
    · rintro (inconsistent | unserved)
      · exact fine (.inr (.inl inconsistent))
      · exact fine (.inr (.inr (.inl unserved)))

/-- Settles O23: each stage is read as its bytes spell it or refused for its own faults, and the whole record is then
checked by R55 and R56. -/
theorem actionRecordImageIsChecked : Obligations.ActionRecordImageIsChecked := by
  intro image hlength b n1 n2 s4 weight scale on spanBad bytesLeft outOfRange inconsistent unserved reserved
  refine ⟨recordOfImage_of_undefined, fun defined fault => (recordOfImage_refused_or_spells hlength defined).1 fault,
    fun defined fine => ?_⟩
  obtain ⟨r, hr, spells⟩ := (recordOfImage_refused_or_spells hlength defined).2 fine
  exact ⟨r, hr, spells.urgent, spells.repeats, spells.condition, spells.onTrue, spells.onFalse,
    fun present => spells.matching.trans (if_pos present), fun absent => spells.matching.trans (if_neg absent),
    fun present => spells.translate.trans (if_pos present), fun absent => spells.translate.trans (if_neg absent),
    fun present => spells.extract.trans (if_pos present), fun absent => spells.extract.trans (if_neg absent),
    fun present => spells.adjust.trans (if_pos present), fun absent => spells.adjust.trans (if_neg absent),
    fun present => spells.limit.trans (if_pos present), fun absent => spells.limit.trans (if_neg absent),
    fun present => spells.accumulate.trans (if_pos present), fun absent => spells.accumulate.trans (if_neg absent)⟩

end Sys2Proof.Machine
end

/-! ## The accumulator commands (R67 to R69) -/

section
namespace Sys2Proof.Machine

theorem rangeOk_iff (first count : Byte) (most : Nat) :
    rangeOk first count most = true ↔
      ¬(31 < first.toNat ∨ count = 0 ∨ most < count.toNat ∨ 32 < first.toNat + count.toNat) := by
  have zero : count = 0 ↔ count.toNat = 0 := BitVec.toNat_inj.symm
  simp only [rangeOk, Bool.and_eq_true, decide_eq_true_eq, zero]
  omega

theorem AccMode.ofByte_eq (b : Byte) :
    AccMode.ofByte b = if 1 < b.toNat then none else some (if b = 0 then .saturate else .wrap) := by
  have zero : b = 0 ↔ b.toNat = 0 := BitVec.toNat_inj.symm
  simp only [AccMode.ofByte, zero]
  split
  next h => simp [h]
  next h => simp [h]
  next not_zero not_one =>
    have above : 1 < b.toNat := Nat.lt_of_le_of_ne (Nat.pos_of_ne_zero not_zero) (Ne.symm not_one)
    rw [if_pos above]

/-- The last byte of the image: the sticky flag in bit 0, the mode in bit 1. -/
theorem accumulatorFlags_eq (sticky : Bool) (mode : AccMode) :
    flagByte false false false false false false (mode == .wrap) sticky =
      (if sticky then 1 else 0) + (if mode = .wrap then 2 else 0) := by
  cases sticky <;> cases mode <;> rfl

/-- The image of section 12.4, its last byte a number. -/
theorem Accumulator.image_eq (a : Accumulator) :
    a.image = signedBytesOf 6 a.sum ++ bytesOf 4 a.samples ++ signedBytesOf 2 a.tally
      ++ [(if a.sticky then 1 else 0) + (if a.mode = .wrap then 2 else 0)] := by
  rw [Accumulator.image, accumulatorFlags_eq]

/-- What ACC_READ comes to on a payload of its length (R67). -/
theorem accReadBody_eq (first count flags : Byte) (s : State) :
    accReadBody [first, count, flags] s =
      if 31 < first.toNat ∨ count = 0 ∨ 16 < count.toNat ∨ 32 < first.toNat + count.toNat ∨ 1 < flags.toNat then
        .error .badArg
      else
        done ([first, count] ++ (List.range count.toNat).flatMap fun i => (bankGet s.ab (first.toNat + i)).image)
          { s with ab := if flags = 1 then bankApply Accumulator.clear first.toNat count.toNat s.ab else s.ab } := by
  have one : (flags.toNat == 1) = decide (flags = 1) := by
    rw [Bool.beq_eq_decide_eq]
    exact decide_eq_decide.mpr (BitVec.toNat_inj (y := 1))
  simp only [accReadBody, readFlag0_eq]
  by_cases hflags : 1 < flags.toNat
  · simp only [hflags, or_true, if_true]
  · by_cases hrange : rangeOk first count 16 = true
    · have fine := (rangeOk_iff first count 16).mp hrange
      simp only [hflags, hrange, or_false, if_neg fine, if_false, if_true, one, decide_eq_true_eq,
        Sparse.getRun_eq, List.flatMap_map, bankGet]
      split <;> rfl
    · have fault := not_not.mp (mt (rangeOk_iff first count 16).mpr hrange)
      simp only [hflags, hrange, or_false, if_pos fault, if_false]
      rfl

/-- What ACC_CLEAR comes to on a payload of its length (R68). -/
theorem accClearBody_eq (first count : Byte) (s : State) :
    accClearBody [first, count] s =
      if 31 < first.toNat ∨ count = 0 ∨ 32 < count.toNat ∨ 32 < first.toNat + count.toNat then .error .badArg
      else done [] { s with ab := bankApply Accumulator.clear first.toNat count.toNat s.ab } := by
  simp only [accClearBody, rangeOk_iff, ite_not]

/-- What ACC_SETUP comes to on a payload of its length (R69). -/
theorem accSetupBody_eq (first count mode : Byte) (s : State) :
    accSetupBody [first, count, mode] s =
      if 31 < first.toNat ∨ count = 0 ∨ 32 < count.toNat ∨ 32 < first.toNat + count.toNat ∨ 1 < mode.toNat then
        .error .badArg
      else done [] { s with
        ab := bankApply (fun a => { a with mode := if mode = 0 then .saturate else .wrap })
          first.toNat count.toNat s.ab } := by
  simp only [accSetupBody, AccMode.ofByte_eq]
  by_cases hmode : 1 < mode.toNat
  · simp only [hmode, or_true, if_true]
  · simp only [hmode, or_false, if_false, rangeOk_iff, ite_not]

/-- A command of its own code whose body refuses exactly the bad arguments. -/
theorem manage_code_of_ite {s u : State} {t : Telegram} {rest : List Telegram} {code : Byte} {body : Body}
    {p data : List Byte} {bad : Prop} [Decidable bad] (h : s.atHead t rest) (hf : t.function = code) (hp : t.payload = p)
    (hb : body p (s.takeCommand rest) = if bad then .error .badArg else done data u) :
    (bad → manage (hasCode code) body s = (s.takeCommand rest).answer (bareResponse code 2))
    ∧ (¬bad → manage (hasCode code) body s = u.answer (okResponse code data)) :=
  ⟨fun fault => manage_code_error (r := .badArg) h hf hp (hb.trans (if_pos fault)),
    fun fine => manage_code_ok h hf hp (hb.trans (if_neg fine))⟩

/-- Settles O13: the body's equation gives the answer, and the bank's law what the clear flag does. -/
theorem accReadReturnsImages : Obligations.AccReadReturnsImages := by
  intro s t rest first count flags canonical h hf hp bad
  obtain ⟨refused, ran⟩ := manage_code_of_ite h hf hp (accReadBody_eq ..)
  simp only [Accumulator.image_eq] at ran
  refine ⟨fun fault => congrArg _ (refused fault), fun fine => ⟨_, congrArg _ (ran fine), rfl, ?_, ?_⟩⟩
  · rintro rfl
    rfl
  · rintro rfl n
    exact bankGet_bankApply canonical.bank ..

/-- Settles O14: for each of the two commands, its body's equation gives the answer, and the bank's law what the
accumulators become. -/
theorem accClearAndSetup : Obligations.AccClearAndSetup := by
  constructor
  · intro s t rest first count canonical h hf hp bad
    obtain ⟨refused, ran⟩ := manage_code_of_ite h hf hp (accClearBody_eq ..)
    exact ⟨fun fault => congrArg _ (refused fault),
      fun fine => ⟨_, congrArg _ (ran fine), rfl, bankGet_bankApply canonical.bank _ _ _⟩⟩
  · intro s t rest first count mode canonical h hf hp bad
    obtain ⟨refused, ran⟩ := manage_code_of_ite h hf hp (accSetupBody_eq ..)
    exact ⟨fun fault => congrArg _ (refused fault),
      fun fine => ⟨_, congrArg _ (ran fine), rfl, bankGet_bankApply canonical.bank _ _ _⟩⟩

end Sys2Proof.Machine
end

/-! ## One accumulation (R59 to R63) -/

section
namespace Sys2Proof.Machine

/-! ### The term (R60) -/

theorem accumulatorTerm_of_scale_one (value weight : Int) : accumulatorTerm value weight 1 = 2 * (value * weight) := by
  rw [accumulatorTerm, if_pos (by decide)]
  exact mul_comm _ _

/-- A scale of `-k` divides by 2 to the `k` and rounds down. -/
theorem accumulatorTerm_of_scale_neg (value weight : Int) (k : Nat) :
    accumulatorTerm value weight (-(k : Int)) = value * weight / 2 ^ k := by
  cases k with
  | zero => simp [accumulatorTerm]
  | succ k => rw [accumulatorTerm, if_neg (by omega), neg_neg, Int.toNat_natCast]

/-- Every scale of R54 is 1, or the negative of a natural number. -/
theorem scale_cases {scale : Int} (h : scale ≤ 1) : scale = 1 ∨ ∃ k : Nat, scale = -(k : Int) := by
  rcases Int.lt_or_eq_of_le h with below | top
  · exact .inr ⟨(-scale).toNat, by omega⟩
  · exact .inl top

theorem product_bounds {value weight : Int} (hv : -1999999998 ≤ value ∧ value ≤ 1999999998)
    (hw : -32767 ≤ weight ∧ weight ≤ 32767) : -(2 ^ 46) < value * weight ∧ value * weight < 2 ^ 46 := by
  have magnitude : |value * weight| ≤ 1999999998 * 32767 := by
    rw [abs_mul]
    exact mul_le_mul (abs_le.mpr hv) (abs_le.mpr hw) (abs_nonneg _) (by decide)
  rw [abs_le] at magnitude
  omega

theorem term_bounds {value weight scale : Int} (hs : scale ≤ 1)
    (hp : -(2 ^ 46) < value * weight ∧ value * weight < 2 ^ 46) :
    -(2 ^ 47) < accumulatorTerm value weight scale ∧ accumulatorTerm value weight scale < 2 ^ 47 := by
  obtain ⟨low, high⟩ := hp
  rcases scale_cases hs with rfl | ⟨k, rfl⟩
  · rw [accumulatorTerm_of_scale_one]
    omega
  · rw [accumulatorTerm_of_scale_neg]
    have pos : (1 : Int) ≤ 2 ^ k := one_le_pow₀ (by decide)
    have above : -(2 ^ 46) ≤ value * weight / 2 ^ k :=
      (Int.le_ediv_iff_mul_le (by omega)).mpr (by nlinarith only [low, pos])
    have below : value * weight / 2 ^ k < 2 ^ 46 :=
      (Int.ediv_lt_iff_lt_mul (by omega)).mpr (by nlinarith only [high, pos])
    omega

/-- Rounding down: the term is the greatest number whose multiple by 2 to the `k` the product reaches. -/
theorem term_rounds_down (value weight : Int) (k : Nat) :
    (2 : Int) ^ k * accumulatorTerm value weight (-(k : Int)) ≤ value * weight
    ∧ value * weight < (2 : Int) ^ k * (accumulatorTerm value weight (-(k : Int)) + 1) := by
  have pos : (0 : Int) < 2 ^ k := by positivity
  rw [accumulatorTerm_of_scale_neg]
  exact ⟨Int.mul_ediv_self_le pos.ne', (Int.lt_mul_ediv_self_add pos).trans_eq (mul_add_one _ _).symm⟩

/-! ### The exact total in each mode (R59, R61, R62) -/

theorem Accumulator.settle_of_within {a : Accumulator} {total : Int} (low : -(2 ^ 47) ≤ total)
    (high : total < 2 ^ 47) : a.settle total = { a with sum := total } := by
  rw [Accumulator.settle, Config.sumTop, Config.sumBottom, if_neg (by omega), if_neg (by omega)]

theorem Accumulator.settle_of_above {a : Accumulator} {total : Int} (h : 2 ^ 47 ≤ total) :
    a.settle total = { a with
      sum := if a.mode = .wrap then total - 2 ^ 48 else 2 ^ 47 - 1
      tally := if a.mode = .wrap then min (a.tally + 1) 32767 else a.tally
      sticky := true } := by
  rw [Accumulator.settle, Config.sumTop, if_pos (by omega)]
  cases hm : a.mode <;> simp [Config.wrapSpan]

theorem Accumulator.settle_of_below {a : Accumulator} {total : Int} (h : total < -(2 ^ 47)) :
    a.settle total = { a with
      sum := if a.mode = .wrap then total + 2 ^ 48 else -(2 ^ 47)
      tally := if a.mode = .wrap then max (a.tally - 1) (-32768) else a.tally
      sticky := true } := by
  rw [Accumulator.settle, Config.sumTop, Config.sumBottom, if_neg (by omega), if_pos (by omega)]
  cases hm : a.mode <;> simp [Config.wrapSpan]

/-- A total lies within the range of a sum, above it or below it (R58). -/
theorem total_cases (total : Int) :
    (-(2 ^ 47) ≤ total ∧ total < 2 ^ 47) ∨ 2 ^ 47 ≤ total ∨ total < -(2 ^ 47) := by
  omega

theorem Accumulator.settle_frame (a : Accumulator) (total : Int) :
    (a.settle total).samples = a.samples ∧ (a.settle total).mode = a.mode := by
  rcases total_cases total with ⟨low, high⟩ | above | below
  · rw [Accumulator.settle_of_within low high]
    exact ⟨rfl, rfl⟩
  · rw [Accumulator.settle_of_above above]
    exact ⟨rfl, rfl⟩
  · rw [Accumulator.settle_of_below below]
    exact ⟨rfl, rfl⟩

/-- A total less than 2 to the 48 in magnitude is brought back into the range by one clamp or one wrap. -/
theorem Accumulator.settle_inRange {a : Accumulator} {total : Int} (h : a.inRange) (low : -(2 ^ 48) < total)
    (high : total < 2 ^ 48) : (a.settle total).inRange := by
  obtain ⟨_, _, samples, tallyLow, tallyHigh⟩ := h
  rcases total_cases total with ⟨totalLow, totalHigh⟩ | above | below
  · rw [Accumulator.settle_of_within totalLow totalHigh]
    exact ⟨totalLow, Int.lt_add_one_iff.mp totalHigh, samples, tallyLow, tallyHigh⟩
  · rw [Accumulator.settle_of_above above]
    refine ⟨?_, ?_, samples, ?_, ?_⟩ <;> dsimp only <;> split <;> omega
  · rw [Accumulator.settle_of_below below]
    refine ⟨?_, ?_, samples, ?_, ?_⟩ <;> dsimp only <;> split <;> omega

/-! ### The accumulation -/

/-- An accumulation settles the exact total and counts the sample (R59). -/
theorem Accumulator.accumulate_eq (a : Accumulator) (value weight scale : Int) :
    a.accumulate value weight scale =
      { a.settle (a.sum + accumulatorTerm value weight scale) with samples := min (a.samples + 1) 4294967295 } := by
  rw [Accumulator.accumulate, (Accumulator.settle_frame ..).1, countUp]

/-- An accumulation keeps the ranges of R58. -/
theorem Accumulator.accumulate_inRange {a : Accumulator} {value weight scale : Int} (h : a.inRange)
    (low : -(2 ^ 48) < a.sum + accumulatorTerm value weight scale)
    (high : a.sum + accumulatorTerm value weight scale < 2 ^ 48) : (a.accumulate value weight scale).inRange := by
  obtain ⟨sumLow, sumHigh, _, tallyLow, tallyHigh⟩ := Accumulator.settle_inRange h low high
  rw [Accumulator.accumulate_eq]
  exact ⟨sumLow, sumHigh, Nat.min_le_right _ _, tallyLow, tallyHigh⟩

/-- Settles O39: the bounds of the product bound the term and the total, and the total is settled by where it lies. -/
theorem accumulationIsExact : Obligations.AccumulationIsExact := by
  intro a value weight scale h hv hv' hw hw' _ hs term total a'
  have ⟨productLow, productHigh⟩ := product_bounds ⟨hv, hv'⟩ ⟨hw, hw'⟩
  have ⟨termLow, termHigh⟩ : -(2 ^ 47) < term ∧ term < 2 ^ 47 := term_bounds hs ⟨productLow, productHigh⟩
  have ⟨sumLow, sumHigh, _⟩ := h
  have totalLow : -(2 ^ 48) < total := by omega
  have totalHigh : total < 2 ^ 48 := by omega
  have settled : a' = { a.settle total with samples := min (a.samples + 1) 4294967295 } := Accumulator.accumulate_eq ..
  refine ⟨?_, ?_, productLow, productHigh, termLow, termHigh, ?_, totalLow, totalHigh, ?_, ?_,
    Accumulator.accumulate_inRange h totalLow totalHigh, fun low high => ?_, fun above => ?_, fun below => ?_⟩
  · rintro rfl
    exact (accumulatorTerm_of_scale_neg value weight 0).trans (Int.ediv_one _)
  · rintro rfl
    exact accumulatorTerm_of_scale_one ..
  · rintro k rfl
    exact term_rounds_down ..
  · rw [settled]
  · rw [settled]
    exact (Accumulator.settle_frame ..).2
  · rw [settled, Accumulator.settle_of_within low high]
    exact ⟨rfl, rfl, rfl⟩
  · rw [settled, Accumulator.settle_of_above above]
    exact ⟨rfl, fun saturate => by simp [saturate], fun wrap => by simp [wrap]⟩
  · rw [settled, Accumulator.settle_of_below below]
    exact ⟨rfl, fun saturate => by simp [saturate], fun wrap => by simp [wrap]⟩

end Sys2Proof.Machine
end

/-! ## The verdict (R65, R73, R74) -/

section
namespace Sys2Proof.Machine

/-! ### The conditions, by what they read (R73) -/

section
variable (x : StageResults) (sticky attention : Bool)

/-! A set FAIL makes all four limit conditions and both value conditions false. -/

theorem Condition.holds_inLimits_iff :
    Condition.inLimits.holds x sticky attention = true ↔ x.fail = false ∧ x.below = false ∧ x.above = false := by
  simp [Condition.holds]

theorem Condition.holds_outOfLimits_iff :
    Condition.outOfLimits.holds x sticky attention = true ↔ x.fail = false ∧ (x.below = true ∨ x.above = true) := by
  simp [Condition.holds]

theorem Condition.holds_below_iff :
    Condition.below.holds x sticky attention = true ↔ x.fail = false ∧ x.below = true := by
  simp [Condition.holds]

theorem Condition.holds_above_iff :
    Condition.above.holds x sticky attention = true ↔ x.fail = false ∧ x.above = true := by
  simp [Condition.holds]

theorem Condition.holds_valueZero_iff :
    Condition.valueZero.holds x sticky attention = true ↔ x.fail = false ∧ x.zero = true := by
  simp [Condition.holds]

theorem Condition.holds_valueNonzero_iff :
    Condition.valueNonzero.holds x sticky attention = true ↔ x.fail = false ∧ x.zero = false := by
  simp [Condition.holds]

/-! The match conditions are false where there is no match result: MATCH_NE is not the opposite of MATCH_EQ. -/

theorem Condition.holds_matchEq_iff :
    Condition.matchEq.holds x sticky attention = true ↔ x.matched = some .eq := beq_iff_eq

theorem Condition.holds_matchNe_iff :
    Condition.matchNe.holds x sticky attention = true ↔ x.matched = some .lt ∨ x.matched = some .gt := by
  simp [Condition.holds]

theorem Condition.holds_matchLt_iff :
    Condition.matchLt.holds x sticky attention = true ↔ x.matched = some .lt := beq_iff_eq

theorem Condition.holds_matchGt_iff :
    Condition.matchGt.holds x sticky attention = true ↔ x.matched = some .gt := beq_iff_eq

/-! The conditions on a flag outside the stage results. -/

theorem Condition.holds_accClean_iff :
    Condition.accClean.holds x sticky attention = true ↔ sticky = false := by
  simp [Condition.holds]

theorem Condition.holds_notAttention_iff :
    Condition.notAttention.holds x sticky attention = true ↔ attention = false := by
  simp [Condition.holds]

end

theorem Condition.tests_iff (c : Condition) : c.tests = true ↔ c = .accOverflow ∨ c = .accClean := by
  cases c <;> decide

/-! ### The overflow test (R65) -/

section
variable {r : ActionRecord} {a : AccumulateStage} (x : StageResults) (attention : Bool) (bank : Sparse Accumulator)

theorem runVerdict_of_accumulate (h : r.accumulate = some a) :
    runVerdict r attention x bank = (r.condition.holds x (bankGet bank a.base).sticky attention,
      if r.condition.tests then bankPut bank a.base { bankGet bank a.base with sticky := false } else bank) := by
  rw [runVerdict, h]

theorem runVerdict_of_no_accumulate (h : r.accumulate = none) :
    runVerdict r attention x bank = (r.condition.holds x false attention, bank) := by
  rw [runVerdict, h]

variable {bank} in
/-- The test clears the sticky flag of the base accumulator alone, and a condition that makes no test clears none. -/
theorem bankGet_runVerdict (hbank : Sparse.wf accumulatorDefault bank = true) (h : r.accumulate = some a) (n : Nat) :
    bankGet (runVerdict r attention x bank).2 n =
      if n = a.base ∧ (r.condition = .accOverflow ∨ r.condition = .accClean) then
        { bankGet bank n with sticky := false }
      else bankGet bank n := by
  simp only [runVerdict_of_accumulate x attention bank h, ← Condition.tests_iff]
  by_cases tests : r.condition.tests = true
  · by_cases base : n = a.base <;> simp [tests, bankGet_bankPut hbank, base]
  · simp [tests]

end

/-- Settles O40: each condition by its own equation, and the overflow test by what one write leaves in the bank. -/
theorem verdictConditionsReadTheResults : Obligations.VerdictConditionsReadTheResults := by
  refine ⟨fun x sticky attention => ?_, fun r a x attention bank hbank h => ⟨?_, ?_⟩, fun r x attention bank h => ?_⟩
  · exact ⟨rfl, Bool.false_ne_true,
      Condition.holds_inLimits_iff .., Condition.holds_outOfLimits_iff ..,
      Condition.holds_below_iff .., Condition.holds_above_iff ..,
      Condition.holds_matchEq_iff .., Condition.holds_matchNe_iff ..,
      Condition.holds_matchLt_iff .., Condition.holds_matchGt_iff ..,
      Condition.holds_valueZero_iff .., Condition.holds_valueNonzero_iff ..,
      Iff.rfl, Iff.rfl, Condition.holds_accClean_iff .., Iff.rfl, Condition.holds_notAttention_iff ..⟩
  · rw [runVerdict_of_accumulate x attention bank h]
  · exact bankGet_runVerdict x attention hbank h
  · exact runVerdict_of_no_accumulate x attention bank h

end Sys2Proof.Machine
end

/-! ## The power-on contents (R102, R156) -/

section
namespace Sys2Proof.Machine

theorem Four.get_const {β : Type} (v : β) (k : Fin 4) : Four.get ⟨v, v, v, v⟩ k = v := by
  fin_cases k <;> rfl

@[simp] theorem State.ts_powerOn (straps : Station) (level : Level) (pause : Bool) :
    (State.powerOn straps level pause).ts = .powerOn := rfl

@[simp] theorem TableStore.table_powerOn (i : SetId) : TableStore.powerOn.table i = .powerOn := by
  cases i <;> rfl

theorem TableSet.get_windows_powerOn (d : Direction) (k : Fin 4) : (TableSet.powerOn.windows d).get k = .powerOn := by
  cases d <;> exact Four.get_const _ k

/-- At power-on every translate table is the identity. -/
theorem TableSet.translated_powerOn (table : Nat) (b : Byte) : TableSet.powerOn.translated table b = b := by
  change BitVec.ofNat 8 (256 * table + b.toNat) = b
  apply BitVec.eq_of_toNat_eq
  rw [BitVec.toNat_ofNat]
  omega

theorem TableSet.patternRun_powerOn (sp : Span) :
    TableSet.powerOn.patternRun sp = List.replicate sp.length spaceByte := by
  change Sparse.getRun patternDefault [] sp.offset sp.length = _
  simp [Sparse.getRun_eq, Sparse.get, patternDefault, List.map_const']

/-- At power-on both classifiers are IDLE and no sweep has an item outstanding. -/
theorem State.isHeld_powerOn (straps : Station) (level : Level) (pause : Bool) (i : SetId) :
    (State.powerOn straps level pause).isHeld i = false := rfl

/-- Settles O5: the reset state's tables and sweeps, part by part. -/
theorem powerOnTablesAndSweeps : Obligations.PowerOnTablesAndSweeps := by
  intro straps level s
  refine ⟨_, rfl, fun i => ?_, rfl, rfl, rfl, Four.get_const Sweep.powerOn⟩
  simp only [State.ts_powerOn, TableStore.table_powerOn]
  exact ⟨TableSet.get_windows_powerOn, fun _ => rfl, fun _ => rfl, TableSet.translated_powerOn, fun _ _ => rfl,
    TableSet.patternRun_powerOn, fun _ => rfl, State.isHeld_powerOn straps level s.tp.pause i⟩

end Sys2Proof.Machine
end

/-! ## TABLE_WRITE, whatever its kind (R95) -/

section
namespace Sys2Proof.Machine

/-! ### Readers in sequence -/

theorem Reads.map {α β : Type} {x : Option α} {bad : Prop} {v : α} (h : Reads x bad v) (f : α → β) :
    Reads (x.map f) bad (f v) :=
  ⟨fun fault => by rw [h.1 fault, Option.map_none], fun fine => by rw [h.2 fine, Option.map_some]⟩

/-- Two readers in sequence: what either refuses is refused. -/
theorem Reads.pair {α β γ : Type} {x : Option α} {y : Option β} {bad bad' : Prop} {v : α} {w : β} (hx : Reads x bad v)
    (hy : Reads y bad' w) (f : α → β → γ) : Reads (x.bind fun a => y.map (f a)) (bad ∨ bad') (f v w) := by
  by_cases fault : bad
  · rw [hx.1 fault]
    exact ⟨fun _ => rfl, fun fine => absurd (.inl fault) fine⟩
  · rw [hx.2 fault]
    exact (hy.map (f v)).congr (or_iff_right fault).symm

/-- A reader that never refuses. -/
theorem reads_some {α : Type} (v : α) : Reads (some v) False v := ⟨False.elim, fun _ => rfl⟩

/-- Where the reader refuses, there is a fault. -/
theorem reads_none {α : Type} {bad : Prop} (h : bad) (v : α) : Reads none bad v :=
  ⟨fun _ => rfl, fun fine => absurd h fine⟩

/-- A check before a reader. -/
theorem Reads.ite_none {α : Type} {x : Option α} {bad : Prop} {v : α} (h : Reads x bad v) (p : Prop) [Decidable p] :
    Reads (if p then none else x) (p ∨ bad) v := by
  by_cases fault : p
  · rw [if_pos fault]
    exact reads_none (.inl fault) v
  · rw [if_neg fault]
    exact h.congr (or_iff_right fault).symm

/-! ### The row -/

/-- A TABLE_WRITE of its own kind and length: BUSY outside EDITABLE, BAD_ARG where its write refuses, else the edit set
becomes what the write gives. -/
theorem tableWrite_of_reads {c : Instr} {s : State} {t : Telegram} {rest : List Telegram} {kind : TableKind} {n : Nat}
    {dataBytes : List Byte → Nat} {write : TableSet → List Byte → List Byte → Option TableSet} {k : Byte}
    {sel data : List Byte} {bad : Prop} {T : TableSet}
    (hrow : exec c s = .next (manage (hasKind codeTableWrite 0 kind) (tableWriteBody kind n dataBytes write) s))
    (h : s.atHead t rest) (hf : t.function = codeTableWrite) (hp : t.payload = k :: (sel ++ data))
    (hk : TableKind.ofByte k = some kind) (hn : sel.length = n) (hd : data.length = dataBytes sel)
    (hw : Reads (write (s.ts.table s.ts.edit) sel data) bad T) :
    (s.ts.state ≠ .editable → exec c s = .next ((s.takeCommand rest).answer (bareResponse codeTableWrite 1)))
    ∧ (s.ts.state = .editable → bad →
      exec c s = .next ((s.takeCommand rest).answer (bareResponse codeTableWrite 2)))
    ∧ (s.ts.state = .editable → ¬bad →
      exec c s = .next (((s.takeCommand rest).withEdit T).answer (okResponse codeTableWrite []))) := by
  rw [hrow, tableWrite_row h hf hp hk hn hd]
  refine ⟨fun busy => by rw [if_pos busy], fun editable fault => ?_, fun editable fine => ?_⟩
  · rw [if_neg (not_not.mpr editable), hw.1 fault]
  · rw [if_neg (not_not.mpr editable), hw.2 fine]

/-! ### The arrays of the edit set -/

theorem TableSet.wf_iff {T : TableSet} :
    T.wf = true ↔ Sparse.wf entryDefault T.entries = true ∧ Sparse.wf recordDefault T.records = true
      ∧ Sparse.wf translateDefault T.translate = true ∧ Sparse.wf delimiterDefault T.delimiters = true
      ∧ Sparse.wf patternDefault T.pattern = true ∧ Sparse.wf itemDefault T.items = true := by
  simp only [TableSet.wf, Bool.and_eq_true, and_assoc]

theorem State.TablesCanonical.table {s : State} (h : s.TablesCanonical) (i : SetId) : (s.ts.table i).wf = true := by
  cases i
  · exact h.set0
  · exact h.set1

/-- After a run of writes a cell of the run reads as given, and every other cell as before. -/
theorem Sparse.get_putRun_of_length {α : Type} [DecidableEq α] {d : Nat → α} {m : Sparse α} {vs : List α} {count : Nat}
    (h : Sparse.wf d m = true) (hcount : vs.length = count) (start n : Nat) (x : α) :
    Sparse.get d (Sparse.putRun d start vs m) n =
      if start ≤ n ∧ n < start + count then vs.getD (n - start) x else Sparse.get d m n := by
  rw [Sparse.get_putRun h]
  by_cases above : start ≤ n
  · by_cases inside : n < start + count
    · have listed : n - start < vs.length := by omega
      simp [above, inside, listed]
    · have past : vs.length ≤ n - start := by omega
      simp [above, inside, past]
  · rw [if_neg above, if_neg (fun run => above run.1)]

/-! ### Numbers in a selector (R178) -/

theorem natOf_pair (hi lo : Byte) : natOf [hi, lo] = 256 * hi.toNat + lo.toNat := by
  simp [natOf]

theorem toNat_eq_zero_iff (b : Byte) : b.toNat = 0 ↔ b = 0 := BitVec.toNat_inj (y := 0)

end Sys2Proof.Machine
end

/-! ## TABLE_WRITE of a window (R96) -/

section
namespace Sys2Proof.Machine

theorem Direction.ofByte_reads (b : Byte) :
    Reads (Direction.ofByte b) (1 < b.toNat) (if b = 0 then .downstream else .upstream) := by
  simp only [Direction.ofByte, ← toNat_eq_zero_iff]
  split
  next zero => simp [Reads, zero]
  next one => simp [Reads, one]
  next not_zero not_one =>
    simp only [imp_false] at not_zero not_one
    exact reads_none (by omega) _

theorem index4_reads (b : Byte) : Reads (index4 b) (3 < b.toNat) (Fin.ofNat 4 b.toNat) := by
  unfold index4
  split
  case h_5 not_zero not_one not_two not_three =>
    simp only [imp_false] at not_zero not_one not_two not_three
    exact reads_none (by omega) _
  all_goals
    rename_i code
    rw [code]
    exact ⟨by decide, fun _ => rfl⟩

theorem windowAt_reads (d w : Byte) :
    Reads (windowAt [d, w]) (1 < d.toNat ∨ 3 < w.toNat)
      (if d = 0 then .downstream else .upstream, Fin.ofNat 4 w.toNat) := by
  have sequence : windowAt [d, w] = (Direction.ofByte d).bind fun x => (index4 w).map (Prod.mk x) := by
    rw [windowAt]
    cases Direction.ofByte d <;> cases index4 w <;> rfl
  rw [sequence]
  exact (Direction.ofByte_reads d).pair (index4_reads w) Prod.mk

/-- The image of a window with a reserved bit set, or out of the limits of R96. -/
def WindowBad (image : List Byte) : Prop :=
  num1 image 0 % 128 ≠ 0 ∨ 16383 < num2 image 1 ∨ 16383 < num2 image 3 ∨ num2 image 3 < num2 image 1
    ∨ 2047 < num2 image 5 ∨ 2047 < num2 image 5 + (num2 image 3 - num2 image 1)

theorem extractLsb'_seven_ne_zero_iff (b : Byte) : b.extractLsb' 0 7 ≠ 0 ↔ b.toNat % 128 ≠ 0 := by
  rw [Ne, ← BitVec.toNat_inj, BitVec.extractLsb'_toNat]
  rfl

theorem Window.ofImage_reads {image : List Byte} (h : image.length = 7) :
    Reads (Window.ofImage image) (WindowBad image)
      ⟨(fieldByte image 0).getLsbD 7, num2 image 1, num2 image 3, num2 image 5⟩ := by
  simp only [Window.ofImage, fieldNat_two (image := image) (k := 1) (by omega),
    fieldNat_two (image := image) (k := 3) (by omega), fieldNat_two (image := image) (k := 5) (by omega),
    ite_none_ite_none, extractLsb'_seven_ne_zero_iff]
  exact (reads_ite _ _).congr (by simp only [WindowBad, or_assoc])

/-- The set with window `k` of that direction replaced. -/
def TableSet.setWindow (T : TableSet) (d : Direction) (k : Fin 4) (w : Window) : TableSet :=
  match d with
  | .downstream => { T with downstream := T.downstream.set k w }
  | .upstream => { T with upstream := T.upstream.set k w }

theorem writeWindow_eq (T : TableSet) (sel data : List Byte) :
    writeWindow T sel data = (windowAt sel).bind fun x => (Window.ofImage data).map (T.setWindow x.1 x.2) := by
  rw [writeWindow]
  rcases windowAt sel with _ | ⟨_ | _, k⟩ <;> cases Window.ofImage data <;> rfl

theorem writeWindow_reads (T : TableSet) (d w : Byte) {image : List Byte} (h : image.length = 7) :
    Reads (writeWindow T [d, w] image) ((1 < d.toNat ∨ 3 < w.toNat) ∨ WindowBad image)
      (T.setWindow (if d = 0 then .downstream else .upstream) (Fin.ofNat 4 w.toNat)
        ⟨(fieldByte image 0).getLsbD 7, num2 image 1, num2 image 3, num2 image 5⟩) := by
  rw [writeWindow_eq]
  exact (windowAt_reads d w).pair (Window.ofImage_reads h) fun x => T.setWindow x.1 x.2

/-- Settles O18: the selector and the image are each refused for their own faults; otherwise one window is replaced. -/
theorem windowWriteIsChecked : Obligations.WindowWriteIsChecked := by
  intro s t rest d w f l1 l0 h1 h0 b1 b0 h hf hp low high base bad x
  obtain ⟨busy, refused, ran⟩ := tableWrite_of_reads (c := .tableWriteWindow) (sel := [d, w]) rfl h hf hp rfl rfl rfl
    ((writeWindow_reads _ d w rfl).congr or_assoc)
  refine ⟨busy, refused, fun editable fine => (ran editable fine).trans ?_⟩
  by_cases direction : d = 0
  · simp only [direction, if_true]
    rfl
  · simp only [direction, if_false]
    rfl

end Sys2Proof.Machine
end

/-! ## TABLE_WRITE of a run of entries (R97) -/

section
namespace Sys2Proof.Machine

theorem entriesAt_reads (hi lo c : Byte) :
    Reads (entriesAt [hi, lo, c])
      (2047 < 256 * hi.toNat + lo.toNat ∨ c = 0 ∨ 100 < c.toNat ∨ 2048 < 256 * hi.toNat + lo.toNat + c.toNat)
      (256 * hi.toNat + lo.toNat, c.toNat) := by
  simp only [entriesAt, natOf_pair, toNat_eq_zero_iff]
  exact reads_ite _ _

/-- A code that names no entry (R97). -/
def CodeUnlisted (code : Nat) : Prop := 255 < code ∧ code ≠ 0xFFFE ∧ code ≠ 0xFFFF

/-- The entry that a listed code names. -/
def Entry.named (code : Nat) : Entry :=
  if code = 0xFFFF then .pass else if code = 0xFFFE then .drop else .action (BitVec.ofNat 8 code)

theorem Entry.ofCode_reads (code : Nat) : Reads (Entry.ofCode code) (CodeUnlisted code) (Entry.named code) := by
  unfold Entry.ofCode Entry.named Reads CodeUnlisted
  split_ifs <;> simp_all <;> omega

theorem entriesOf_cons_cons (hi lo : Byte) (data : List Byte) :
    entriesOf (hi :: lo :: data) = (Entry.ofCode (natOf [hi, lo])).bind fun e => (entriesOf data).map (e :: ·) := by
  rw [entriesOf]
  cases Entry.ofCode (natOf [hi, lo]) <;> cases entriesOf data <;> rfl

/-- A run of codes is refused for any unlisted one among them, and else names its entries in order. -/
theorem entriesOf_reads (n : Nat) {data : List Byte} (h : data.length = 2 * n) :
    Reads (entriesOf data) (∃ i, i < n ∧ CodeUnlisted (num2 data (2 * i)))
      ((List.range n).map fun i => Entry.named (num2 data (2 * i))) := by
  induction n generalizing data with
  | zero =>
    obtain rfl := List.length_eq_zero_iff.mp h
    exact (reads_some []).congr (by simp)
  | succ n ih =>
    obtain ⟨hi, lo, data, rfl⟩ : ∃ hi lo rest, data = hi :: lo :: rest := by
      match data, h with
      | hi :: lo :: rest, _ => exact ⟨hi, lo, rest, rfl⟩
    have tail := ih (data := data) (by simpa [Nat.mul_succ] using h)
    rw [entriesOf_cons_cons, natOf_pair, List.range_succ_eq_map, List.map_cons, List.map_map]
    have faults := Nat.exists_lt_succ_left (n := n) (p := fun i => CodeUnlisted (num2 (hi :: lo :: data) (2 * i)))
    exact ((Entry.ofCode_reads _).pair tail List.cons).congr faults.symm

theorem writeEntries_eq (T : TableSet) (sel data : List Byte) :
    writeEntries T sel data = (entriesAt sel).bind fun x =>
      (entriesOf data).map fun es => { T with entries := Sparse.putRun entryDefault x.1 es T.entries } := by
  rw [writeEntries]
  cases entriesAt sel <;> cases entriesOf data <;> rfl

theorem writeEntries_reads (T : TableSet) (hi lo c : Byte) {data : List Byte} (h : data.length = 2 * c.toNat) :
    Reads (writeEntries T [hi, lo, c] data)
      ((2047 < 256 * hi.toNat + lo.toNat ∨ c = 0 ∨ 100 < c.toNat ∨ 2048 < 256 * hi.toNat + lo.toNat + c.toNat)
        ∨ ∃ i, i < c.toNat ∧ CodeUnlisted (num2 data (2 * i)))
      { T with
        entries := Sparse.putRun entryDefault (256 * hi.toNat + lo.toNat)
          ((List.range c.toNat).map fun i => Entry.named (num2 data (2 * i))) T.entries } := by
  rw [writeEntries_eq]
  exact (entriesAt_reads hi lo c).pair (entriesOf_reads c.toNat h) _

/-- Settles O19: the selector and the codes are each refused for their own faults; otherwise one run is written. -/
theorem entriesWriteIsChecked : Obligations.EntriesWriteIsChecked := by
  intro s t rest hi lo c data canonical h hf hp hd start code bad
  obtain ⟨busy, refused, ran⟩ := tableWrite_of_reads (c := .tableWriteEntries) (sel := [hi, lo, c]) rfl h hf hp rfl rfl
    hd ((writeEntries_reads _ hi lo c hd).congr (by simp only [or_assoc]; rfl : _ ↔ bad))
  obtain ⟨entries, -⟩ := TableSet.wf_iff.mp (canonical.table s.ts.edit)
  have cell := fun n => Sparse.get_putRun_of_length (count := c.toNat) entries
    (vs := (List.range c.toNat).map fun i => Entry.named (code i)) (by simp) start n .pass
  refine ⟨busy, refused, fun editable fine => ⟨_, ran editable fine, rfl, fun i inside => ?_, fun n outside => ?_⟩⟩
  · refine (cell (start + i)).trans ?_
    rw [if_pos (by omega), Nat.add_sub_cancel_left]
    simp [inside, Entry.named]
  · exact (cell n).trans (if_neg (by omega))

end Sys2Proof.Machine
end

/-! ## TABLE_WRITE of translate bytes, of pattern bytes and of a delimiter set (R98) -/

section
namespace Sys2Proof.Machine

theorem translateAt_reads (n start c : Byte) :
    Reads (translateAt [n, start, c]) (3 < n.toNat ∨ c = 0 ∨ 128 < c.toNat ∨ 256 < start.toNat + c.toNat)
      (256 * n.toNat + start.toNat, c.toNat) := by
  simp only [translateAt, toNat_eq_zero_iff]
  exact reads_ite _ _

theorem patternAt_reads (hi lo c : Byte) :
    Reads (patternAt [hi, lo, c])
      (2047 < 256 * hi.toNat + lo.toNat ∨ c = 0 ∨ 128 < c.toNat ∨ 2048 < 256 * hi.toNat + lo.toNat + c.toNat)
      (256 * hi.toNat + lo.toNat, c.toNat) := by
  simp only [patternAt, natOf_pair, toNat_eq_zero_iff]
  exact reads_ite _ _

theorem delimiterAt_reads (n : Byte) : Reads (delimiterAt [n]) (7 < n.toNat) n.toNat := reads_ite _ _

theorem writeTranslateBytes_reads (T : TableSet) (n start c : Byte) (data : List Byte) :
    Reads (writeTranslateBytes T [n, start, c] data)
      (3 < n.toNat ∨ c = 0 ∨ 128 < c.toNat ∨ 256 < start.toNat + c.toNat)
      { T with translate := Sparse.putRun translateDefault (256 * n.toNat + start.toNat) data T.translate } :=
  (translateAt_reads n start c).map _

theorem writePatternBytes_reads (T : TableSet) (hi lo c : Byte) (data : List Byte) :
    Reads (writePatternBytes T [hi, lo, c] data)
      (2047 < 256 * hi.toNat + lo.toNat ∨ c = 0 ∨ 128 < c.toNat ∨ 2048 < 256 * hi.toNat + lo.toNat + c.toNat)
      { T with pattern := Sparse.putRun patternDefault (256 * hi.toNat + lo.toNat) data T.pattern } :=
  (patternAt_reads hi lo c).map _

theorem writeDelimiterSet_reads (T : TableSet) (n : Byte) (data : List Byte) :
    Reads (writeDelimiterSet T [n] data) (7 < n.toNat)
      { T with
        delimiters := Sparse.putRun delimiterDefault (256 * n.toNat) (delimitersOfImage data) T.delimiters } :=
  (delimiterAt_reads n).map _

theorem TableSet.patternRun_one (T : TableSet) (k : Nat) :
    T.patternRun ⟨k, 1⟩ = [Sparse.get patternDefault T.pattern k] := rfl

/-- What a translate table reads as after a run of writes that stays inside table `n`. -/
theorem TableSet.translated_putRun {T : TableSet} (h : Sparse.wf translateDefault T.translate = true) {data : List Byte}
    {n start count : Nat} (hcount : data.length = count) (inside : start + count ≤ 256) (m : Nat) (v : Byte) :
    { T with translate := Sparse.putRun translateDefault (256 * n + start) data T.translate }.translated m v =
      if m = n ∧ start ≤ v.toNat ∧ v.toNat < start + count then data.getD (v.toNat - start) 0 else T.translated m v := by
  refine (Sparse.get_putRun_of_length h hcount _ _ 0).trans ?_
  have hv := v.isLt
  by_cases given : m = n ∧ start ≤ v.toNat ∧ v.toNat < start + count
  · obtain ⟨rfl, low, high⟩ := given
    rw [if_pos (by omega), if_pos ⟨rfl, low, high⟩, Nat.add_sub_add_left]
  · rw [if_neg (by omega), if_neg given]
    rfl

/-- What a delimiter set reads as after the whole membership of set `n` is written. -/
theorem TableSet.isDelimiter_putRun {T : TableSet} (h : Sparse.wf delimiterDefault T.delimiters = true)
    (image : List Byte) (n m : Nat) (v : Byte) :
    { T with
      delimiters := Sparse.putRun delimiterDefault (256 * n) (delimitersOfImage image) T.delimiters }.isDelimiter m v =
      if m = n then (fieldByte image (v.toNat / 8)).getLsbD (v.toNat % 8) else T.isDelimiter m v := by
  rw [TableSet.isDelimiter, Sparse.get_putRun_of_length (count := 256) h (by simp [delimitersOfImage]) _ _ false]
  have hv := v.isLt
  by_cases given : m = n
  · subst given
    rw [if_pos (by omega), if_pos rfl, Nat.add_sub_cancel_left]
    simp [delimitersOfImage, hv]
  · rw [if_neg (by omega), if_neg given]
    rfl

/-- Settles O20: each selector is refused for its own faults; otherwise one run of its array is written. -/
theorem byteTableWritesAreChecked : Obligations.ByteTableWritesAreChecked := by
  refine ⟨?_, ?_, ?_⟩
  · intro s t rest n start c data canonical h hf hp hd bad T
    obtain ⟨-, -, translate, -⟩ := TableSet.wf_iff.mp (canonical.table s.ts.edit)
    obtain ⟨busy, refused, ran⟩ := tableWrite_of_reads (c := .tableWriteTranslateBytes) rfl h hf hp rfl rfl hd
      (writeTranslateBytes_reads _ n start c data)
    refine ⟨busy, refused, fun editable fine => ⟨_, ran editable fine, rfl, ?_⟩⟩
    exact TableSet.translated_putRun translate hd (by omega)
  · intro s t rest hi lo c data canonical h hf hp hd start bad T
    obtain ⟨-, -, -, -, pattern, -⟩ := TableSet.wf_iff.mp (canonical.table s.ts.edit)
    obtain ⟨busy, refused, ran⟩ := tableWrite_of_reads (c := .tableWritePatternBytes) rfl h hf hp rfl rfl hd
      (writePatternBytes_reads _ hi lo c data)
    refine ⟨busy, refused, fun editable fine => ⟨_, ran editable fine, rfl, fun k => ?_⟩⟩
    simp only [TableSet.patternRun_one, Sparse.get_putRun_of_length pattern hd _ _ 0, apply_ite (fun b : Byte => [b])]
    rfl
  · intro s t rest n data canonical h hf hp hd T
    obtain ⟨-, -, -, delimiters, -⟩ := TableSet.wf_iff.mp (canonical.table s.ts.edit)
    obtain ⟨busy, refused, ran⟩ := tableWrite_of_reads (c := .tableWriteDelimiterSet) (sel := [n]) rfl h hf hp rfl rfl hd
      (writeDelimiterSet_reads _ n data)
    -- `dsimp only` projects the array; `rfl` would evaluate its 256 writes
    refine ⟨busy, refused, fun editable fine => ⟨_, ran editable (Nat.not_lt.mpr fine), by dsimp only, ?_⟩⟩
    exact TableSet.isDelimiter_putRun delimiters data n.toNat

end Sys2Proof.Machine
end

/-! ## TABLE_WRITE of a sweep item (R99) -/

section
namespace Sys2Proof.Machine

theorem stationOf_eq_broadcast_iff (a : Byte) : stationOf a = broadcastStation ↔ a.toNat % 64 = 63 := by
  rw [stationOf, ← BitVec.toNat_inj, BitVec.extractLsb'_toNat]
  rfl

theorem stationOf_eq_ofNat (a : Byte) : stationOf a = BitVec.ofNat 6 a.toNat := by
  apply BitVec.eq_of_toNat_eq
  simp [stationOf]

/-- The image of a sweep item that marks it defined and is out of the limits of R99, or sets the reserved bit. -/
def ItemBad (image : List Byte) : Prop :=
  (fieldByte image 0).getLsbD 7 = true ∧ ((fieldByte image 0).getLsbD 6 = true ∨ num1 image 0 % 64 = 63
    ∨ 2047 < num2 image 2 ∨ 240 < num1 image 4 ∨ 2048 < num2 image 2 + num1 image 4)

/-- The item that an accepted image spells; `none` marks it undefined. -/
def itemSpelled (image : List Byte) : Option SweepItem :=
  if (fieldByte image 0).getLsbD 7 then
    some ⟨BitVec.ofNat 6 (num1 image 0), fieldByte image 1, ⟨num2 image 2, num1 image 4⟩⟩
  else none

theorem itemOfImage_eq (image : List Byte) :
    itemOfImage image =
      if (fieldByte image 0).getLsbD 7 then
        if (fieldByte image 0).getLsbD 6 = true ∨ stationOf (fieldByte image 0) = broadcastStation then none
        else (patternSpanOf (fieldNat image 2 2) (fieldNat image 4 1)).map fun run =>
          some ⟨stationOf (fieldByte image 0), fieldByte image 1, run⟩
      else some none := by
  rw [itemOfImage]
  cases patternSpanOf (fieldNat image 2 2) (fieldNat image 4 1) <;> rfl

theorem itemOfImage_reads {image : List Byte} (h : image.length = 5) :
    Reads (itemOfImage image) (ItemBad image) (itemSpelled image) := by
  rw [itemOfImage_eq, ItemBad, itemSpelled, fieldNat_two (by omega), fieldNat_one (by omega)]
  by_cases defined : (fieldByte image 0).getLsbD 7 = true
  · simp only [defined, if_true, true_and, ← stationOf_eq_broadcast_iff, ← stationOf_eq_ofNat]
    exact (((reads_ite _ _).map _).ite_none _).congr or_assoc
  · simp only [defined, Bool.false_eq_true, if_false, false_and]
    exact reads_some none

theorem indexAt_reads (n : Byte) : Reads (indexAt [n]) False n.toNat := reads_some _

theorem writeSweepItem_eq (T : TableSet) (sel data : List Byte) :
    writeSweepItem T sel data = (indexAt sel).bind fun n =>
      (itemOfImage data).map fun i => { T with items := Sparse.put itemDefault n i T.items } := by
  rw [writeSweepItem]
  cases indexAt sel <;> cases itemOfImage data <;> rfl

theorem writeSweepItem_reads (T : TableSet) (n : Byte) {image : List Byte} (h : image.length = 5) :
    Reads (writeSweepItem T [n] image) (ItemBad image)
      { T with items := Sparse.put itemDefault n.toNat (itemSpelled image) T.items } := by
  rw [writeSweepItem_eq]
  exact ((indexAt_reads n).pair (itemOfImage_reads h) _).congr (iff_of_eq (false_or _))

/-- Settles O21: the image is refused for its own faults; otherwise one item is written, defined or undefined. -/
theorem sweepItemWriteIsChecked : Obligations.SweepItemWriteIsChecked := by
  intro s t rest n a f p1 p0 len canonical h hf hp offset bad T
  obtain ⟨-, -, -, -, -, items⟩ := TableSet.wf_iff.mp (canonical.table s.ts.edit)
  obtain ⟨busy, refused, ran⟩ := tableWrite_of_reads (c := .tableWriteSweepItem) (sel := [n]) rfl h hf hp rfl rfl rfl
    (writeSweepItem_reads _ n rfl)
  exact ⟨busy, refused, fun editable fine => ⟨_, ran editable fine, rfl, Sparse.get_put items⟩⟩

end Sys2Proof.Machine
end

/-! ## The candidates (R121) -/

section
namespace Sys2Proof.Machine

theorem FieldLineController.frqHasRoom_iff (f : FieldLineController) : f.frqHasRoom = true ↔ f.frq.length < 4 :=
  decide_eq_true_iff

theorem State.trunkCandidate_iff (s : State) :
    s.trunkCandidate = true ↔ ∃ e rest, s.fsq = e :: rest ∧ (e.telegram.station = 63 ∨ s.flc.frq.length < 4) := by
  rw [State.trunkCandidate]
  cases s.fsq with
  | nil => simp
  | cons e rest => simp [FieldLineController.frqHasRoom_iff, broadcastStation]

theorem State.urgentHead_iff (s : State) :
    s.urgentHead = true ↔ ∃ e rest, s.fsq = e :: rest ∧ e.urgent = true := by
  rw [State.urgentHead]
  cases s.fsq <;> simp

theorem State.sweepCandidate_iff (s : State) (k : SweepId) :
    s.sweepCandidate k = true ↔
      (s.ss.get k).state = .running ∧ (s.ss.get k).outstanding = none ∧ s.flc.frq.length < 4 := by
  simp [State.sweepCandidate, FieldLineController.frqHasRoom_iff, and_assoc]

/-- The cyclic order after the pointer passes over every sweep, the pointer's own last (R125). -/
theorem mem_cyclicOrder (pointer k : SweepId) : k ∈ [pointer + 1, pointer + 2, pointer + 3, pointer] := by
  revert pointer k
  decide

/-- The sweeps' side has a sweep to grant exactly when some sweep is a candidate, wherever the pointer stands. -/
theorem State.nextSweep_isSome_iff (s : State) :
    s.nextSweep.isSome = true ↔ ∃ k, s.sweepCandidate k = true := by
  rw [State.nextSweep, List.find?_isSome]
  exact exists_congr fun k => and_iff_right (mem_cyclicOrder s.la.pointer k)

theorem State.hasWork_trunk_iff (s : State) :
    s.hasWork .trunk = true ↔ ∃ e rest, s.fsq = e :: rest ∧ (e.telegram.station = 63 ∨ s.flc.frq.length < 4) :=
  s.trunkCandidate_iff

theorem State.hasWork_sweeps_iff (s : State) :
    s.hasWork .sweeps = true ↔
      ∃ k, (s.ss.get k).state = .running ∧ (s.ss.get k).outstanding = none ∧ s.flc.frq.length < 4 :=
  s.nextSweep_isSome_iff.trans (exists_congr s.sweepCandidate_iff)

end Sys2Proof.Machine
end

/-! ## The Line Arbiter's decision (R123, R124, R129) -/

section
namespace Sys2Proof.Machine

/-- Under an open bracket the trunk side alone is granted, the grant is counted, and no tenure moves (R129). -/
theorem State.decideGrant_of_open {s : State} (opened : s.la.bracket ≠ none) :
    s.decideGrant =
      if s.hasWork .trunk then some (.trunk, { s.la with grants := min (s.la.grants + 1) 65535 }) else none :=
  if_pos (Option.isSome_iff_ne_none.mpr opened)

/-- An urgent head takes the line, and the trunk side a full tenure (R124). -/
theorem State.decideGrant_of_urgent {s : State} (closed : s.la.bracket = none) (trunk : s.hasWork .trunk = true)
    (urgent : s.urgentHead = true) :
    s.decideGrant = some (.trunk, { s.la with holder := .trunk, counter := s.config.tenureLimit }) := by
  rw [State.decideGrant, if_neg (by simp [closed]), if_pos ⟨trunk, urgent⟩]

/-- The bracket is closed and no urgent head takes the line: the decision goes by tenure (R123). -/
def State.GoesByTenure (s : State) : Prop := s.la.bracket = none ∧ ¬(s.hasWork .trunk = true ∧ s.urgentHead = true)

/-- The tenure table, by which of the holder and the other side has work (R123). -/
theorem State.decideGrant_of_tenure {s : State} (tenure : s.GoesByTenure) :
    s.decideGrant =
      if s.hasWork s.la.holder then
        if s.hasWork s.la.holder.other then some (s.la.holder, s.la.spend s.config.tenureLimit)
        else some (s.la.holder, s.la)
      else if s.hasWork s.la.holder.other then
        some (s.la.holder.other, { s.la with holder := s.la.holder.other, counter := s.config.tenureLimit })
      else none := by
  obtain ⟨closed, noUrgent⟩ := tenure
  rw [State.decideGrant, if_neg (by simp [closed])]
  exact if_neg noUrgent

/-- Where both sides have work, the holder is granted and spends one of its tenure. -/
theorem State.decideGrant_of_both {s : State} {side : Side} (tenure : s.GoesByTenure) (holder : s.la.holder = side)
    (work : s.hasWork side = true) (otherWork : s.hasWork side.other = true) :
    s.decideGrant = some (side,
      if s.la.counter - 1 = 0 then { s.la with holder := side.other, counter := s.config.tenureLimit }
      else { s.la with counter := s.la.counter - 1 }) := by
  subst holder
  rw [State.decideGrant_of_tenure tenure, if_pos work, if_pos otherWork, LineArbiter.spend]

/-- Where the holder alone has work, it is granted and no tenure moves. -/
theorem State.decideGrant_of_holder {s : State} {side : Side} (tenure : s.GoesByTenure) (holder : s.la.holder = side)
    (work : s.hasWork side = true) (noOther : ¬s.hasWork side.other = true) : s.decideGrant = some (side, s.la) := by
  subst holder
  rw [State.decideGrant_of_tenure tenure, if_pos work, if_neg noOther]

/-- Where the other side alone has work, it is granted and becomes the holder with a full tenure. -/
theorem State.decideGrant_of_other {s : State} {side : Side} (tenure : s.GoesByTenure) (holder : s.la.holder = side)
    (noWork : ¬s.hasWork side = true) (otherWork : s.hasWork side.other = true) :
    s.decideGrant = some (side.other, { s.la with holder := side.other, counter := s.config.tenureLimit }) := by
  subst holder
  rw [State.decideGrant_of_tenure tenure, if_neg noWork, if_pos otherWork]

/-- Where neither side has work, there is no decision. -/
theorem State.decideGrant_of_noWork {s : State} (tenure : s.GoesByTenure) (noWork : ∀ side, ¬s.hasWork side = true) :
    s.decideGrant = none := by
  rw [State.decideGrant_of_tenure tenure, if_neg (noWork _), if_neg (noWork _)]

/-- Settles O45: the candidates are what the two sides' work comes to, and each row is a case of the bracket, of the urgent
head or of the tenure table. -/
theorem decisionsGoByTenure : Obligations.DecisionsGoByTenure := by
  intro s trunk sweep sweeps urgent limit spent
  have hTrunk : s.hasWork .trunk = true ↔ trunk := s.hasWork_trunk_iff
  have hSweeps : s.hasWork .sweeps = true ↔ sweeps := s.hasWork_sweeps_iff
  have hUrgent : s.urgentHead = true ↔ urgent := s.urgentHead_iff
  simp only [← hTrunk, ← hSweeps, ← hUrgent]
  refine ⟨fun opened t => ?_, fun opened t => ?_, fun closed u t => State.decideGrant_of_urgent closed t u,
    fun closed noUrgent => ?_⟩
  · rw [State.decideGrant_of_open opened, if_pos t]
  · rw [State.decideGrant_of_open opened, if_neg t]
  · have tenure : s.GoesByTenure := ⟨closed, mt And.symm noUrgent⟩
    refine ⟨fun t w holder => State.decideGrant_of_both tenure holder t w,
      fun t w holder => State.decideGrant_of_both tenure holder w t,
      fun t w holder => State.decideGrant_of_holder tenure holder t w,
      fun t w holder => State.decideGrant_of_other tenure holder w t,
      fun t w holder => State.decideGrant_of_holder tenure holder w t,
      fun t w holder => State.decideGrant_of_other tenure holder t w,
      fun t w => State.decideGrant_of_noWork tenure fun side => ?_⟩
    cases side with
    | trunk => exact t
    | sweeps => exact w

end Sys2Proof.Machine
end

/-! ## The bracket's commands and its timer (R128, R130, R131) -/

section
namespace Sys2Proof.Machine

/-- What BRACKET_OPEN comes to on a payload of its length (R128). -/
theorem bracketOpenBody_eq (hi lo : Byte) (s : State) :
    bracketOpenBody [hi, lo] s =
      if 256 * hi.toNat + lo.toNat = 0 then .error .badArg
      else done [] { s with la := { s.la with
        bracket := some (256 * hi.toNat + lo.toNat)
        grants := if s.la.bracket = none then 0 else s.la.grants } } := by
  have kept : (if s.la.bracket.isSome then s.la.grants else 0) = if s.la.bracket = none then 0 else s.la.grants := by
    cases s.la.bracket <;> rfl
  rw [bracketOpenBody, natOf_pair, kept]

/-- BRACKET_CLOSE closes the bracket and makes no notice (R130). -/
theorem bracketCloseBody_eq (s : State) :
    bracketCloseBody [] s = done [] { s with la := { s.la with bracket := none } } := rfl

/-- What the expiry leaves where the notice slot is empty (R131). -/
theorem LineArbiter.expire_of_noNotice {la : LineArbiter} (h : la.notice = none) :
    la.expire = { la with bracket := none, notice := some ⟨1, la.grants⟩ } := by
  rw [LineArbiter.expire, h]

/-- What the expiry leaves where a notice is pending: one expiry more, and the newest grant count (R131). -/
theorem LineArbiter.expire_of_notice {la : LineArbiter} {x : BracketNotice} (h : la.notice = some x) :
    la.expire = { la with bracket := none, notice := some ⟨min (x.expiries + 1) 255, la.grants⟩ } := by
  rw [LineArbiter.expire, h]
  rfl

/-- While the bracket is open, its timer's expiry is the arbiter's, and the notice asks for admission (R131). -/
theorem exec_bracketTimerExpiry_of_open {s : State} {n : Nat} (h : s.la.bracket = some n) :
    exec .bracketTimerExpiry s = .next (State.serviceTrunk { s with la := s.la.expire }) := by
  change execBracketTimerExpiry s = _
  rw [execBracketTimerExpiry, h]

/-- Settles O50: the two commands by their bodies' equations, the expiry by what it finds in the notice slot. -/
theorem bracketsOpenCloseAndExpire : Obligations.BracketsOpenCloseAndExpire := by
  refine ⟨fun s t rest h => ⟨fun hi lo hf hp => ?_, fun hf hp => ?_⟩,
    fun s n opened => ⟨fun empty => ?_, fun x full => ?_⟩⟩
  · obtain ⟨refused, ran⟩ := manage_code_of_ite h hf hp (bracketOpenBody_eq hi lo _)
    exact ⟨fun zero => congrArg _ (refused zero), fun running => congrArg _ (ran running)⟩
  · exact congrArg _ (manage_code_ok h hf hp (bracketCloseBody_eq _))
  · rw [exec_bracketTimerExpiry_of_open opened, LineArbiter.expire_of_noNotice empty]
  · rw [exec_bracketTimerExpiry_of_open opened, LineArbiter.expire_of_notice full]

end Sys2Proof.Machine
end

/-! ## Applying a report to a sweep (R138 to R145) -/

section
namespace Sys2Proof.Machine

/-! ### Ends (R144, R145) -/

/-- An end moves nothing but the notice slot, and that only with notify set. -/
theorem Sweep.fillNotice_eq (c : Sweep) :
    c.fillNotice = { c with notice := if c.notify then some (c.endValues c.notice.isSome) else c.notice } := by
  rw [Sweep.fillNotice]
  by_cases told : c.notify = true
  · rw [if_pos told, if_pos told]
  · rw [if_neg told, if_neg told]

/-- What follows a complete pass is decided by the sweep as the end found it: the notice has no part in it (R143). -/
theorem Sweep.afterPass_fillNotice (c : Sweep) :
    c.fillNotice.afterPass =
      if c.rerun then { c.fillNotice with cursor := c.first, remaining := c.count, retryTally := 0, rerun := false }
      else if 0 < c.period then { c.fillNotice with state := .waiting, periodTimer := some c.period }
      else { c.fillNotice with state := .idle } := by
  rw [Sweep.fillNotice_eq]
  rfl

/-! ### The advance and the item found (R141, R143) -/

/-- An advance uses up the pass exactly on its last item. -/
theorem Sweep.moveOn_remaining_eq_zero_iff {c : Sweep} (pos : 1 ≤ c.remaining) :
    c.moveOn.remaining = 0 ↔ c.remaining = 1 := by
  change c.remaining - 1 = 0 ↔ c.remaining = 1
  omega

theorem Sweep.advance_eq {c : Sweep} (pos : 1 ≤ c.remaining) (station : Station) :
    c.advance station =
      if c.remaining = 1 then (c.moveOn.countPass station).fillNotice.afterPass else c.moveOn :=
  if_congr (Sweep.moveOn_remaining_eq_zero_iff pos) rfl rfl

theorem Sweep.found_eq {c : Sweep} (pos : 1 ≤ c.remaining) (station : Station) :
    c.found station =
      (if c.remaining = 1 then c.moveOn.countPass station else c.moveOn).halt .found station :=
  congrArg (Sweep.halt · .found station) (if_congr (Sweep.moveOn_remaining_eq_zero_iff pos) rfl rfl)

/-! ### The order of the steps (R138, R139) -/

/-- The silence run has reached a limit that is set, once the report is counted in it (R139). -/
def Sweep.MeetsSilenceLimit (c : Sweep) (silent : Bool) : Prop :=
  c.silenceLimit ≠ 0 ∧ (c.countSilence silent).silenceRun = c.silenceLimit

/-- A pending stop halts whatever the silence run and the mode (R139). -/
theorem Sweep.applyOutcome_of_stopPending {c : Sweep} (stops : c.stopPending = true) (silent verdict : Bool)
    (station : Station) : c.applyOutcome silent verdict station = (c.countSilence silent).halt .stopped station :=
  if_pos stops

/-- The silence limit halts before the mode is consulted (R139). -/
theorem Sweep.applyOutcome_of_silenceLimit {c : Sweep} {silent : Bool} (goesOn : ¬c.stopPending = true)
    (tooSilent : c.MeetsSilenceLimit silent) (verdict : Bool) (station : Station) :
    c.applyOutcome silent verdict station = (c.countSilence silent).halt .silent station :=
  (if_neg goesOn).trans (if_pos tooSilent)

/-- Any other report goes on to the step of the mode (R139). -/
theorem Sweep.applyOutcome_of_mode {c : Sweep} {silent : Bool} (goesOn : ¬c.stopPending = true)
    (heard : ¬c.MeetsSilenceLimit silent) (verdict : Bool) (station : Station) :
    c.applyOutcome silent verdict station = (c.countSilence silent).applyMode verdict station :=
  (if_neg goesOn).trans (if_neg heard)

/-! ### The step of the mode (R140 to R142) -/

theorem Sweep.applyMode_every {c : Sweep} (mode : c.mode = .every) (verdict : Bool) (station : Station) :
    c.applyMode verdict station = c.advance station := by
  rw [Sweep.applyMode, mode]

theorem Sweep.applyMode_haltOnFalse {c : Sweep} (mode : c.mode = .haltOnFalse) (verdict : Bool) (station : Station) :
    c.applyMode verdict station = if verdict then c.advance station else c.halt .qualFalse station := by
  rw [Sweep.applyMode, mode]

theorem Sweep.applyMode_seek {c : Sweep} (mode : c.mode = .seek) (verdict : Bool) (station : Station) :
    c.applyMode verdict station = if verdict then c.found station else c.advance station := by
  rw [Sweep.applyMode, mode]

theorem Sweep.applyMode_retry {c : Sweep} (mode : c.mode = .retry) (verdict : Bool) (station : Station) :
    c.applyMode verdict station =
      if verdict then ({ c with retryTally := 0 } : Sweep).advance station else c.retryOnce station := by
  rw [Sweep.applyMode, mode]

/-- Settles O52: the order of the steps first, then the mode's step by mode and verdict; the statement's halt is the
model's, and its advance is the model's because some of the pass remains. -/
theorem reportsAreAppliedInOrder : Obligations.ReportsAreAppliedInOrder := by
  intro c silent verdict station pos c1 notified halted moved completed advanced applied stops tooSilent
  have hAdvance : ∀ x : Sweep, 1 ≤ x.remaining → x.advance station = advanced x := fun x left => by
    rw [Sweep.advance_eq left, ← ite_not, Sweep.afterPass_fillNotice]
    rfl
  refine ⟨fun stop => Sweep.applyOutcome_of_stopPending stop _ _ _,
    fun goesOn limit => Sweep.applyOutcome_of_silenceLimit goesOn limit _ _, fun goesOn heard => ?_⟩
  have hMode : applied = c1.applyMode verdict station := Sweep.applyOutcome_of_mode goesOn heard _ _
  rw [hMode]
  refine ⟨fun m => ?every, fun m v => ?haltTrue, fun m v => ?haltFalse, fun m v => ?seekFalse, fun m v more => ?seekMore,
    fun m v last => ?seekLast, fun m v => ?retryTrue, fun m v limit => ?retryLimit, fun m v again => ?retryAgain⟩
  case every => rw [Sweep.applyMode_every (c := c1) m, hAdvance c1 pos]
  case haltTrue => rw [Sweep.applyMode_haltOnFalse (c := c1) m, if_pos v, hAdvance c1 pos]
  case haltFalse =>
    rw [Sweep.applyMode_haltOnFalse (c := c1) m, v]
    rfl
  case seekFalse =>
    rw [Sweep.applyMode_seek (c := c1) m, v, ← hAdvance c1 pos]
    rfl
  case seekMore =>
    rw [Sweep.applyMode_seek (c := c1) m, if_pos v, Sweep.found_eq (c := c1) pos, if_neg more]
    rfl
  case seekLast =>
    rw [Sweep.applyMode_seek (c := c1) m, if_pos v, Sweep.found_eq (c := c1) pos, if_pos last]
    rfl
  case retryTrue => rw [Sweep.applyMode_retry (c := c1) m, if_pos v, hAdvance { c1 with retryTally := 0 } pos]
  case retryLimit =>
    rw [Sweep.applyMode_retry (c := c1) m, v]
    exact if_pos limit
  case retryAgain =>
    rw [Sweep.applyMode_retry (c := c1) m, v]
    exact if_neg again

end Sys2Proof.Machine
end

/-! ## IDENTIFY (R169) -/

section
namespace Sys2Proof.Machine

/-- A command that only answers an image, on the empty payload: the image is read in the act of execution, and the rest of
the part is as the command was taken. -/
theorem manage_imageBody {s : State} {t : Telegram} {rest : List Telegram} {code : Byte} (image : State → List Byte)
    (h : s.atHead t rest) (hf : t.function = code) (hp : t.payload = []) :
    manage (hasCode code) (imageBody image) s
      = (s.takeCommand rest).answer (okResponse code (image (s.takeCommand rest))) :=
  manage_code_ok (body := imageBody image) h hf hp rfl

/-- The image of IDENTIFY byte by byte: the part code 4110 is 0x100E, and a capacity of two bytes is 2048 or 256. -/
theorem identifyImage_eq (own : Station) :
    identifyImage own = [0x10, 0x0E, 1, BitVec.ofNat 8 own.toNat, 8, 4, 16, 16, 4, 8, 32, 4, 4, 0x08, 0x00, 0x01, 0x00, 4, 8,
      0x08, 0x00, 0x01, 0x00] := rfl

/-- Settles O9: IDENTIFY answers an image and no more, and taking the command leaves the own address. -/
theorem identifyReturnsTheCapacities : Obligations.IdentifyReturnsTheCapacities := by
  intro s t rest h hf hp
  have answered := manage_imageBody (fun s => identifyImage s.tp.ownAddress) h hf hp
  rw [identifyImage_eq, State.takeCommand_tp_ownAddress] at answered
  exact congrArg _ answered

end Sys2Proof.Machine
end

/-! ## MAILBOX_TAKE (R81, R86, R175) -/

section
namespace Sys2Proof.Machine

/-! ### The image of an entry (section 12.4) -/

theorem bytesOf_one (n : Nat) : bytesOf 1 n = [BitVec.ofNat 8 n] := by
  simp [bytesOf]

theorem bytesOf_two (n : Nat) : bytesOf 2 n = twoBytes n := by
  simp [bytesOf, twoBytes]

/-- The owner code is 0 to 4, so it meets neither flag above it: setting the bits is adding. -/
theorem flagByte_or_ownerCode (upstream verdict : Bool) (owner : Owner) :
    flagByte upstream verdict false false false false false false ||| owner.code =
      (if upstream then 0x80 else 0) + (if verdict then 0x40 else 0) + owner.code := by
  cases owner with
  | trunk => decide +revert
  | sweep k => decide +revert

theorem mailboxHeadByte_eq (c : MailboxCopy) :
    mailboxHeadByte c =
      (if c.direction = .upstream then 0x80 else 0) + (if c.verdict then 0x40 else 0) + c.owner.code := by
  simp only [mailboxHeadByte, flagByte_or_ownerCode, beq_iff_eq]

theorem MailboxEntry.image_eq (e : MailboxEntry) :
    e.image = [(if e.content.direction = .upstream then 0x80 else 0) + (if e.content.verdict then 0x40 else 0)
        + e.content.owner.code]
      ++ twoBytes e.content.result.code ++ twoBytes e.sequence.toNat
      ++ [BitVec.ofNat 8 e.content.originalLength, BitVec.ofNat 8 e.content.payload.length, e.content.address,
        e.content.function] ++ e.content.payload := by
  simp only [MailboxEntry.image, mailboxHeadByte_eq, bytesOf_one, bytesOf_two, List.append_assoc, List.cons_append,
    List.nil_append]

/-! ### The freed slot (R85, R86) -/

theorem Classifier.waitsForMailbox_stalled {u : UnitOfWork} {copy : MailboxCopy} {outputs : List Output}
    (h : u.outputs = .mailbox copy :: outputs) : (Classifier.stalled u).waitsForMailbox = some u := by
  simp only [Classifier.waitsForMailbox, h]

theorem Mailbox.hasRoom_iff (m : Mailbox) : m.hasRoom = true ↔ m.entries.length < 8 := decide_eq_true_iff

/-- With room in the mailbox the copy is placed, and the delivery goes on with the next output (R82, R83). -/
theorem deliver_mailbox_of_room {d : Direction} {u : UnitOfWork} {copy : MailboxCopy} {outputs : List Output} {s : State}
    (room : s.mb.entries.length < 8) :
    deliver d u (.mailbox copy :: outputs) s = deliver d u outputs { s with mb := s.mb.place copy } := by
  rw [deliver, if_pos ((Mailbox.hasRoom_iff _).mpr room)]

/-- A classifier that is given a slot places the copy it waited with and goes on (R85). -/
theorem State.resume_mailbox_of_room {d : Direction} {u : UnitOfWork} {copy : MailboxCopy} {outputs : List Output}
    {s : State} (h : u.outputs = .mailbox copy :: outputs) (room : s.mb.entries.length < 8) :
    s.resume d u u.outputs = deliver d u outputs { s.setClassifier d (.working u) with mb := s.mb.place copy } := by
  rw [State.resume, h, deliver_mailbox_of_room (by rwa [State.setClassifier_mb]), State.setClassifier_mb]

theorem State.giveMailboxSlot_of_none {s : State} (hu : s.uc.waitsForMailbox = none) (hd : s.dc.waitsForMailbox = none) :
    s.giveMailboxSlot = s := by
  simp only [State.giveMailboxSlot, hu, hd]

/-- The Upstream Classifier is asked first, so it is given the slot whether the Downstream Classifier waits or not. -/
theorem State.giveMailboxSlot_upstream {s : State} {u : UnitOfWork} {copy : MailboxCopy} {outputs : List Output}
    (hs : s.uc = .stalled u) (ho : u.outputs = .mailbox copy :: outputs) (room : s.mb.entries.length < 8) :
    s.giveMailboxSlot =
      deliver .upstream u outputs { s.setClassifier .upstream (.working u) with mb := s.mb.place copy } := by
  rw [State.giveMailboxSlot, hs, Classifier.waitsForMailbox_stalled ho]
  exact State.resume_mailbox_of_room ho room

theorem State.giveMailboxSlot_downstream {s : State} {u : UnitOfWork} {copy : MailboxCopy} {outputs : List Output}
    (hu : s.uc.waitsForMailbox = none) (hs : s.dc = .stalled u) (ho : u.outputs = .mailbox copy :: outputs)
    (room : s.mb.entries.length < 8) :
    s.giveMailboxSlot =
      deliver .downstream u outputs { s.setClassifier .downstream (.working u) with mb := s.mb.place copy } := by
  rw [State.giveMailboxSlot, hu, hs, Classifier.waitsForMailbox_stalled ho]
  exact State.resume_mailbox_of_room ho room

/-! ### The command -/

theorem mailboxTakeBody_of_empty {s : State} (h : s.mb.entries = []) : mailboxTakeBody [] s = .error .empty := by
  simp only [mailboxTakeBody, h]

/-- The state after the oldest entry has left the mailbox, its slot not yet given away. -/
def State.dropOldest (s : State) (others : List MailboxEntry) : State := { s with mb := ⟨others, s.mb.next⟩ }

theorem mailboxTakeBody_of_entry {s : State} {e : MailboxEntry} {others : List MailboxEntry}
    (h : s.mb.entries = e :: others) :
    mailboxTakeBody [] s =
      done (BitVec.ofNat 8 (s.dropOldest others).giveMailboxSlot.mb.entries.length :: e.image)
        (s.dropOldest others).giveMailboxSlot := by
  simp only [mailboxTakeBody, h, bytesOf_one, List.singleton_append, State.dropOldest]

/-- MAILBOX_TAKE on a mailbox that holds an entry: the answer counts the entries after the freed slot was given away, and
carries the image of the entry that left. -/
theorem exec_mailboxTake_of_entry {s v : State} {t : Telegram} {rest : List Telegram} {e : MailboxEntry}
    {others : List MailboxEntry} (h : s.atHead t rest) (hf : t.function = 0x50) (hp : t.payload = [])
    (hm : s.mb.entries = e :: others) (hv : ((s.takeCommand rest).dropOldest others).giveMailboxSlot = v) :
    exec .mailboxTake s = .next (v.answer (okResponse 0x50 (BitVec.ofNat 8 v.mb.entries.length :: e.image))) := by
  subst hv
  exact congrArg _ (manage_code_ok h hf hp (mailboxTakeBody_of_entry (s := s.takeCommand rest) hm))

/-- Settles O44: the entry's image once, and then by who is given the freed slot. -/
theorem mailboxTakeReturnsTheOldest : Obligations.MailboxTakeReturnsTheOldest := by
  intro s t rest h hf hp
  constructor
  · intro empty
    exact congrArg _ (manage_code_error h hf hp (mailboxTakeBody_of_empty (s := s.takeCommand rest) empty))
  intro e others hm c image s1
  have taken := fun v => exec_mailboxTake_of_entry (v := v) h hf hp hm
  rw [show e.image = image from MailboxEntry.image_eq e] at taken
  refine ⟨fun hu hd => ?free, fun u copy outputs hs ho room => ?upstream,
    fun u copy outputs hu hs ho room => ?downstream⟩
  case free => exact taken s1 (State.giveMailboxSlot_of_none hu hd)
  case upstream => exact ⟨_, rfl, taken _ (State.giveMailboxSlot_upstream (s := s1) hs ho room)⟩
  case downstream => exact ⟨_, rfl, taken _ (State.giveMailboxSlot_downstream (s := s1) hu hs ho room)⟩

end Sys2Proof.Machine
end

/-! ## What a command can do: one act for each way a row of the opcode table changes the part -/

section
namespace Sys2Proof.Machine

open Host (Outcome)

/-! ### The execution of a management command -/

/-- What a TABLE_WRITE can make of a table set: one of its arrays written, or one of its windows (R96 to R99). -/
inductive TableSet.Written (T : TableSet) : TableSet → Prop
  | window (d : Direction) (k : Fin 4) (w : Window) : Written T (T.setWindow d k w)
  | entries (start : Nat) (es : List Entry) :
    Written T { T with entries := Sparse.putRun entryDefault start es T.entries }
  | record (n : Nat) (r : Option ActionRecord) (image : List Byte) (whole : image.length = 35)
    (accepted : recordOfImage image = some r) :
    Written T { T with records := Sparse.put recordDefault n r T.records }
  | translate (start : Nat) (bytes : List Byte) :
    Written T { T with translate := Sparse.putRun translateDefault start bytes T.translate }
  | delimiters (start : Nat) (members : List Bool) :
    Written T { T with delimiters := Sparse.putRun delimiterDefault start members T.delimiters }
  | pattern (start : Nat) (bytes : List Byte) :
    Written T { T with pattern := Sparse.putRun patternDefault start bytes T.pattern }
  | item (n : Nat) (i : Option SweepItem) : Written T { T with items := Sparse.put itemDefault n i T.items }

/-- What the execution of a management command can make of the part, its response apart: the effects of chapters 4 to 11,
each with the checks that it passed. A refused command changes nothing (R165). -/
inductive State.Executes (s : State) : State → Prop
  | unchanged : Executes s s
  | countersCleared : Executes s { s with counters := .zero }
  | configured (image : List Byte) (c : ConfigRecord) (whole : image.length = 11)
    (accepted : ConfigRecord.ofImage image = some c) : Executes s (s.configure c)
  | tableWritten (T : TableSet) (editable : s.ts.state = .editable)
    (written : (s.ts.table s.ts.edit).Written T) : Executes s (s.withEdit T)
  | published (editable : s.ts.state = .editable) : Executes s s.publish
  | accumulatorsCleared (first n : Nat) : Executes s { s with ab := bankApply Accumulator.clear first n s.ab }
  | accumulatorsSetUp (m : AccMode) (first n : Nat) :
    Executes s { s with ab := bankApply (fun a => { a with mode := m }) first n s.ab }
  | sweepLoaded (k : SweepId) (image : List Byte) (x : SweepParams) (stopped : (s.ss.get k).state ≠ .running)
    (accepted : SweepParams.ofImage image = some x) : Executes s (s.setSweep k ((s.ss.get k).load x))
  | sweepStarted (k : SweepId) (stopped : (s.ss.get k).state ≠ .running) :
    Executes s (s.setSweep k (s.ss.get k).start)
  | sweepResumed (k : SweepId) (halted : (s.ss.get k).state = .halted) :
    Executes s (s.setSweep k (s.ss.get k).resume)
  | sweepStopped (k : SweepId) : Executes s (s.setSweep k (s.ss.get k).stop)
  | mailboxTaken (e : MailboxEntry) (others : List MailboxEntry) (oldest : s.mb.entries = e :: others) :
    Executes s (s.dropOldest others).giveMailboxSlot
  | bracketOpened (timeout grants : Nat) :
    Executes s { s with la := { s.la with bracket := some timeout, grants := grants } }
  | bracketClosed : Executes s { s with la := { s.la with bracket := none } }

/-- A body that runs leaves one of the effects. -/
def Body.Executes (body : Body) : Prop := ∀ p s r, body p s = .ok r → s.Executes r.state

theorem executes_of_done {s u : State} {data : List Byte} {r : Done} (run : done data u = .ok r) (h : s.Executes u) :
    s.Executes r.state := by
  cases run
  exact h

theorem imageBody_executes (image : State → List Byte) : Body.Executes (imageBody image) := by
  intro p s r run
  unfold imageBody at run
  split at run
  · exact executes_of_done run .unchanged
  · cases run

theorem countersBody_executes : Body.Executes countersBody := by
  intro p s r run
  unfold countersBody at run
  split at run
  · split at run
    · cases run
    · refine executes_of_done run ?_
      split
      · exact .countersCleared
      · exact .unchanged
  · cases run

theorem configWriteBody_executes : Body.Executes configWriteBody := by
  intro p s r run
  unfold configWriteBody at run
  split at run
  · next whole =>
    split at run
    · cases run
    · next c accepted =>
      cases run
      exact .configured p c whole accepted
  · cases run

theorem tableReadBody_executes (kind : TableKind) (n : Nat) (read : TableSet → List Byte → Option (List Byte)) :
    Body.Executes (tableReadBody kind n read) := by
  intro p s r run
  unfold tableReadBody at run
  split at run
  · split at run
    · split at run
      · cases run
      · split at run
        · cases run
        · split at run
          · cases run
          · exact executes_of_done run .unchanged
    · cases run
  · cases run

theorem length_of_cutWrite {n : Nat} {dataBytes : List Byte → Nat} {rest sel data : List Byte}
    (h : cutWrite n dataBytes rest = some (sel, data)) : data.length = dataBytes sel := by
  simp only [cutWrite, Option.ite_none_right_eq_some, Option.some.injEq, Prod.mk.injEq] at h
  obtain ⟨⟨-, whole⟩, rfl, rfl⟩ := h
  simp [whole]

theorem tableWriteBody_executes {kind : TableKind} {n : Nat} {dataBytes : List Byte → Nat}
    {write : TableSet → List Byte → List Byte → Option TableSet}
    (hwrite : ∀ T sel data T', data.length = dataBytes sel → write T sel data = some T' → T.Written T') :
    Body.Executes (tableWriteBody kind n dataBytes write) := by
  intro p s r run
  unfold tableWriteBody at run
  split at run
  · split at run
    · split at run
      · cases run
      · next cut =>
        split at run
        · cases run
        · next editable =>
          split at run
          · cases run
          · next written =>
            exact executes_of_done run
              (.tableWritten _ (not_not.mp editable) (hwrite _ _ _ _ (length_of_cutWrite cut) written))
    · cases run
  · cases run

theorem windowWriteBody_executes : Body.Executes windowWriteBody :=
  tableWriteBody_executes fun T sel data T' _ h => by
    simp only [writeWindow_eq, Option.bind_eq_some_iff, Option.map_eq_some_iff] at h
    obtain ⟨⟨d, k⟩, -, w, -, rfl⟩ := h
    exact .window d k w

theorem entriesWriteBody_executes : Body.Executes entriesWriteBody :=
  tableWriteBody_executes fun T sel data T' _ h => by
    simp only [writeEntries_eq, Option.bind_eq_some_iff, Option.map_eq_some_iff] at h
    obtain ⟨⟨start, n⟩, -, es, -, rfl⟩ := h
    exact .entries start es

theorem writeActionRecord_eq (T : TableSet) (sel data : List Byte) :
    writeActionRecord T sel data = (indexAt sel).bind fun n =>
      (recordOfImage data).map fun r => { T with records := Sparse.put recordDefault n r T.records } := by
  rw [writeActionRecord]
  cases indexAt sel <;> cases recordOfImage data <;> rfl

theorem actionRecordWriteBody_executes : Body.Executes actionRecordWriteBody :=
  tableWriteBody_executes fun T sel data T' whole h => by
    simp only [writeActionRecord_eq, Option.bind_eq_some_iff, Option.map_eq_some_iff] at h
    obtain ⟨n, -, r, accepted, rfl⟩ := h
    exact .record n r data whole accepted

theorem translateWriteBody_executes : Body.Executes translateWriteBody :=
  tableWriteBody_executes fun T sel data T' _ h => by
    simp only [writeTranslateBytes, Option.map_eq_some_iff] at h
    obtain ⟨⟨start, n⟩, -, rfl⟩ := h
    exact .translate start data

theorem delimiterWriteBody_executes : Body.Executes delimiterWriteBody :=
  tableWriteBody_executes fun T sel data T' _ h => by
    simp only [writeDelimiterSet, Option.map_eq_some_iff] at h
    obtain ⟨n, -, rfl⟩ := h
    exact .delimiters (256 * n) (delimitersOfImage data)

theorem patternWriteBody_executes : Body.Executes patternWriteBody :=
  tableWriteBody_executes fun T sel data T' _ h => by
    simp only [writePatternBytes, Option.map_eq_some_iff] at h
    obtain ⟨⟨start, n⟩, -, rfl⟩ := h
    exact .pattern start data

theorem sweepItemWriteBody_executes : Body.Executes sweepItemWriteBody :=
  tableWriteBody_executes fun T sel data T' _ h => by
    simp only [writeSweepItem_eq, Option.bind_eq_some_iff, Option.map_eq_some_iff] at h
    obtain ⟨n, -, i, -, rfl⟩ := h
    exact .item n i

theorem publishBody_executes : Body.Executes publishBody := by
  intro p s r run
  unfold publishBody at run
  split at run
  · split at run
    · cases run
    · next editable => exact executes_of_done run (.published (not_not.mp editable))
  · cases run

theorem accReadBody_executes : Body.Executes accReadBody := by
  intro p s r run
  unfold accReadBody at run
  split at run
  · split at run
    · cases run
    · split at run
      · refine executes_of_done run ?_
        split
        · exact .accumulatorsCleared _ _
        · exact .unchanged
      · cases run
  · cases run

theorem accSetupBody_executes : Body.Executes accSetupBody := by
  intro p s r run
  unfold accSetupBody at run
  split at run
  · split at run
    · cases run
    · split at run
      · exact executes_of_done run (.accumulatorsSetUp _ _ _)
      · cases run
  · cases run

theorem accClearBody_executes : Body.Executes accClearBody := by
  intro p s r run
  unfold accClearBody at run
  split at run
  · split at run
    · exact executes_of_done run (.accumulatorsCleared _ _)
    · cases run
  · cases run

theorem sweepLoadBody_executes : Body.Executes sweepLoadBody := by
  intro p s r run
  unfold sweepLoadBody at run
  split at run
  · split at run
    · cases run
    · split at run
      · cases run
      · next stopped =>
        split at run
        · cases run
        · next accepted => exact executes_of_done run (.sweepLoaded _ _ _ stopped accepted)
  · cases run

theorem sweepBody_executes {act : SweepId → State → Except Result Done}
    (hact : ∀ k s r, act k s = .ok r → s.Executes r.state) : Body.Executes (sweepBody act) := by
  intro p s r run
  unfold sweepBody at run
  split at run
  · split at run
    · cases run
    · exact hact _ _ _ run
  · cases run

theorem startSweep_executes (k : SweepId) (s : State) (r : Done) (run : startSweep k s = .ok r) :
    s.Executes r.state := by
  unfold startSweep at run
  split at run
  · cases run
  · next stopped => exact executes_of_done run (.sweepStarted k stopped)

theorem resumeSweep_executes (k : SweepId) (s : State) (r : Done) (run : resumeSweep k s = .ok r) :
    s.Executes r.state := by
  unfold resumeSweep at run
  split at run
  · next halted => exact executes_of_done run (.sweepResumed k halted)
  · cases run

theorem mailboxTakeBody_executes : Body.Executes mailboxTakeBody := by
  intro p s r run
  unfold mailboxTakeBody at run
  split at run
  · split at run
    · cases run
    · next oldest => exact executes_of_done run (.mailboxTaken _ _ oldest)
  · cases run

theorem bracketOpenBody_executes : Body.Executes bracketOpenBody := by
  intro p s r run
  unfold bracketOpenBody at run
  split at run
  · split at run
    · cases run
    · exact executes_of_done run (.bracketOpened _ _)
  · cases run

theorem bracketCloseBody_executes : Body.Executes bracketCloseBody := by
  intro p s r run
  unfold bracketCloseBody at run
  split at run
  · exact executes_of_done run .bracketClosed
  · cases run

theorem refusal_executes (result : Result) : Body.Executes fun _ _ => .error result :=
  fun _ _ _ run => nomatch run

/-! ### The rows -/

/-- The requests and expiries of the field line: what the end of a request or of the reply window, or a settle timer, makes of
the part (R106 to R108, R112, R115, R116). -/
inductive State.LineAct (s : State) : State → Prop
  | requestSent (r : Transaction) (sending : s.flc.state = .sending) (record : s.flc.record = some r)
    (answered : r.broadcast = false) :
    LineAct s { s with
      fp := { s.fp with driverEnable := false, sending := none }
      flc := { s.flc with state := .awaiting, window := .running s.config.replyWindow } }
  | broadcastSent (r : Transaction) (sending : s.flc.state = .sending) (record : s.flc.record = some r)
    (broadcast : r.broadcast = true) :
    LineAct s (State.enterSettling { s with fp := { s.fp with driverEnable := false, sending := none } })
  | replyBegun (hunt : s.fp.framer = .hunt) (awaiting : s.flc.state = .awaiting) :
    LineAct s { s with fp := { s.fp with framer := .address }, flc := { s.flc with state := .receiving } }
  | telegramBegun (hunt : s.fp.framer = .hunt) (outside : s.flc.state ≠ .awaiting)
    (released : s.fp.driverEnable = false) : LineAct s { s with fp := { s.fp with framer := .address } }
  | charactersTaken (chars : List Rx) : LineAct s (chars.foldl fieldChar s).takeFieldChange
  | gapPassed (underWay : s.fp.framer ≠ .hunt) :
    LineAct s (fieldEnded { s with fp := { s.fp with framer := .hunt } } .malformed).takeFieldChange
  | noReply (n : Nat) (awaiting : s.flc.state = .awaiting) (window : s.flc.window = .running n) :
    LineAct s ((s.count .fieldNoReply).closeTransaction .noReply)
  | windowNoted (n : Nat) (receiving : s.flc.state = .receiving) (window : s.flc.window = .running n) :
    LineAct s { s with flc := { s.flc with window := .expired } }
  | settled (settling : s.flc.state = .settling) :
    LineAct s (State.takeFieldChange
      { s with flc := { s.flc with state := .idle, record := none, window := .stopped, settle := none } })

/-- What one command can make of the part, each way with the occasion that it needs. A command whose occasion does not arise
does nothing (log 3). -/
inductive State.Act (s : State) : State → Prop
  | nothing : Act s s
  | poweredOn (straps : Station) (level : Level) :
    Act s { State.powerOn straps level s.tp.pause with pending := s.pending }
  | onFieldLine (t : State) (act : s.LineAct t) : Act s t
  | trunkTelegramsEnded (f : Framer) (ended : List Ended) :
    Act s (ended.foldl sortTrunk { s with tp := { s.tp with framer := f } }).serviceTrunk
  | trunkTelegramBegun : Act s { s with tp := { s.tp with framer := .address } }
  | pauseAsserted : Act s { s with tp := { s.tp with pause := true } }
  | pauseReleased : Act s (State.serviceTrunk { s with tp := { s.tp with pause := false } })
  | trunkTelegramSent (x : TrunkSend) : Act s (State.serviceTrunk { s with tp := s.tp.endSending x })
  | requestTaken (t : Telegram) (rest : List Telegram) (idle : s.dc = .idle) (head : s.tp.trq = t :: rest) :
    Act s ((s.setTrq rest).downstreamUnit t).serviceTrunk
  | outcomeTaken (r : OutcomeRecord) (rest : List OutcomeRecord) (idle : s.uc = .idle) (head : s.flc.frq = r :: rest) :
    Act s (State.upstreamUnit { s with flc := { s.flc with frq := rest } } r).serviceTrunk
  | copyLost (d : Direction) (u : UnitOfWork) (waits : (s.classifier d).waitsForMailbox = some u) :
    Act s ((s.count .mailboxLost).resume d u u.outputs.tail).serviceTrunk
  | granted (side : Side) (la : LineArbiter) (idle : s.flc.state = .idle) (decided : s.decideGrant = some (side, la)) :
    Act s (s.grant side la).serviceTrunk
  | copyEnded (copying : s.ts.state = .copying) :
    Act s { s with ts := { s.ts.withTable s.ts.edit (s.ts.table s.ts.live) with state := .editable } }
  | bracketExpired : Act s (State.serviceTrunk { s with la := s.la.expire })
  | periodExpired (k : SweepId) (waiting : (s.ss.get k).state = .waiting) :
    Act s (s.setSweep k (s.ss.get k).periodExpires)
  | attentionTaken :
    Act s (State.triggerBound
      { s with am := { level := .asserted, count := countUp 255 s.am.count, pending := true } }).serviceTrunk
  | attentionKept (level : Level) : Act s { s with am := { s.am with level := level } }
  | restarted : Act s s.restarted.serviceTrunk
  | commanded (t : Telegram) (rest : List Telegram) (u : State) (e : TsqEntry) (head : s.atHead t rest)
    (effect : (s.takeCommand rest).Executes u) : Act s (u.answer e)

/-- An execution answers a next state, by one of the acts. -/
def State.Answers (s : State) (o : Outcome State Fault Refusal) : Prop := ∃ t, o = .next t ∧ s.Act t

theorem State.Act.answers {s t : State} (h : s.Act t) : s.Answers (.next t) := ⟨t, rfl, h⟩

/-- A management row is not taken, or its command is executed and answered. -/
theorem manage_answers {body : Body} (h : body.Executes) (isRow : Telegram → Bool) (s : State) :
    s.Answers (.next (manage isRow body s)) :=
  (manage_cases (Q := s.Act) .nothing (fun _ _ _ head _ _ => .commanded _ _ _ _ head .unchanged)
    fun _ _ _ head _ run => .commanded _ _ _ _ head (h _ _ _ run)).answers

theorem execRequestSent_answers (s : State) : s.Answers (execRequestSent s) := by
  unfold execRequestSent
  split
  · next r sending record =>
    cases broadcast : r.broadcast with
    | true => exact (State.Act.onFieldLine _ (.broadcastSent r sending record broadcast)).answers
    | false => exact (State.Act.onFieldLine _ (.requestSent r sending record broadcast)).answers
  · exact State.Act.nothing.answers

theorem execOpeningByteArrives_answers (s : State) : s.Answers (execOpeningByteArrives s) := by
  unfold execOpeningByteArrives
  split
  · next hunt =>
    split
    · next awaiting => exact (State.Act.onFieldLine _ (.replyBegun hunt awaiting)).answers
    · next outside =>
      split
      · next released => exact (State.Act.onFieldLine _ (.telegramBegun hunt outside released)).answers
      · exact State.Act.nothing.answers
  · exact State.Act.nothing.answers

theorem execNewTelegramBegun_answers (line : Line) (s : State) : s.Answers (execNewTelegramBegun line s) := by
  cases line with
  | trunk =>
    unfold execNewTelegramBegun
    dsimp only
    split
    · exact State.Act.trunkTelegramBegun.answers
    · exact State.Act.nothing.answers
  | field =>
    unfold execNewTelegramBegun
    dsimp only
    split
    · next occasion =>
      obtain ⟨hunt, outside, released⟩ := occasion
      exact (State.Act.onFieldLine _ (.telegramBegun hunt outside released)).answers
    · exact State.Act.nothing.answers

theorem execGapLimitExpiry_answers (line : Line) (s : State) : s.Answers (execGapLimitExpiry line s) := by
  cases line with
  | trunk =>
    refine State.Act.answers ?_
    unfold trunkGap
    split
    · exact .nothing
    · exact .trunkTelegramsEnded .hunt [.malformed]
  | field =>
    refine State.Act.answers ?_
    unfold fieldGap
    split
    · exact .nothing
    · next underWay => exact .onFieldLine _ (.gapPassed underWay)

theorem execTrunkTelegramSent_answers (s : State) : s.Answers (execTrunkTelegramSent s) := by
  unfold execTrunkTelegramSent
  split
  · exact (State.Act.trunkTelegramSent _).answers
  · exact State.Act.nothing.answers

theorem execDownstreamTake_answers (s : State) : s.Answers (execDownstreamTake s) := by
  unfold execDownstreamTake
  split
  · next idle head => exact (State.Act.requestTaken _ _ idle head).answers
  · exact State.Act.nothing.answers

theorem execUpstreamTake_answers (s : State) : s.Answers (execUpstreamTake s) := by
  unfold execUpstreamTake
  split
  · next idle head => exact (State.Act.outcomeTaken _ _ idle head).answers
  · exact State.Act.nothing.answers

theorem execHoldTimerExpiry_answers (d : Direction) (s : State) : s.Answers (execHoldTimerExpiry d s) := by
  unfold execHoldTimerExpiry
  split
  · next waits =>
    split
    · exact (State.Act.copyLost d _ waits).answers
    · exact State.Act.nothing.answers
  · exact State.Act.nothing.answers

theorem execLineArbiterDecision_answers (s : State) : s.Answers (execLineArbiterDecision s) := by
  unfold execLineArbiterDecision
  split
  · next free =>
    split
    · next decided => exact (State.Act.granted _ _ free.1 decided).answers
    · exact State.Act.nothing.answers
  · exact State.Act.nothing.answers

theorem execReplyWindowExpiry_answers (s : State) : s.Answers (execReplyWindowExpiry s) := by
  unfold execReplyWindowExpiry
  split
  · next awaiting window => exact (State.Act.onFieldLine _ (.noReply _ awaiting window)).answers
  · next receiving window => exact (State.Act.onFieldLine _ (.windowNoted _ receiving window)).answers
  · exact State.Act.nothing.answers

theorem execSettleTimerExpiry_answers (s : State) : s.Answers (execSettleTimerExpiry s) := by
  unfold execSettleTimerExpiry
  split
  · next settling => exact (State.Act.onFieldLine _ (.settled settling)).answers
  · exact State.Act.nothing.answers

theorem execCopyEnd_answers (s : State) : s.Answers (execCopyEnd s) := by
  unfold execCopyEnd
  split
  · next copying => exact (State.Act.copyEnded copying).answers
  · exact State.Act.nothing.answers

theorem execBracketTimerExpiry_answers (s : State) : s.Answers (execBracketTimerExpiry s) := by
  unfold execBracketTimerExpiry
  split
  · exact State.Act.bracketExpired.answers
  · exact State.Act.nothing.answers

theorem execPeriodTimerExpiry_answers (k : SweepId) (s : State) : s.Answers (execPeriodTimerExpiry k s) := by
  unfold execPeriodTimerExpiry
  split
  · next waiting => exact (State.Act.periodExpired k waiting).answers
  · exact State.Act.nothing.answers

theorem execAttentionAssertion_answers (s : State) : s.Answers (execAttentionAssertion s) := by
  unfold execAttentionAssertion
  split
  · exact State.Act.nothing.answers
  · split
    · exact State.Act.attentionTaken.answers
    · exact (State.Act.attentionKept .asserted).answers

theorem execRestart_answers (s : State) : s.Answers (execRestart s) := by
  unfold execRestart
  split
  · exact State.Act.restarted.answers
  · exact manage_answers (refusal_executes _) _ s

/-- Every command answers a next state, by one of the acts. -/
theorem exec_answers (c : Instr) (s : State) : s.Answers (exec c s) := by
  cases c with
  | powerOnReset straps level => exact (State.Act.poweredOn straps level).answers
  | trunkTelegramEnd chars => exact (State.Act.trunkTelegramsEnded _ _).answers
  | gapLimitExpiry line => exact execGapLimitExpiry_answers line s
  | trunkPauseAssert => exact State.Act.pauseAsserted.answers
  | trunkPauseRelease => exact State.Act.pauseReleased.answers
  | trunkTelegramSent => exact execTrunkTelegramSent_answers s
  | downstreamTake => exact execDownstreamTake_answers s
  | upstreamTake => exact execUpstreamTake_answers s
  | holdTimerExpiry d => exact execHoldTimerExpiry_answers d s
  | lineArbiterDecision => exact execLineArbiterDecision_answers s
  | requestSent => exact execRequestSent_answers s
  | openingByteArrives => exact execOpeningByteArrives_answers s
  | fieldTelegramEnd chars => exact (State.Act.onFieldLine _ (.charactersTaken chars)).answers
  | replyWindowExpiry => exact execReplyWindowExpiry_answers s
  | settleTimerExpiry => exact execSettleTimerExpiry_answers s
  | copyEnd => exact execCopyEnd_answers s
  | bracketTimerExpiry => exact execBracketTimerExpiry_answers s
  | periodTimerExpiry k => exact execPeriodTimerExpiry_answers k s
  | attentionAssertion => exact execAttentionAssertion_answers s
  | attentionRelease => exact (State.Act.attentionKept .released).answers
  | newTelegramBegun line => exact execNewTelegramBegun_answers line s
  | identify | status | configRead => exact manage_answers (imageBody_executes _) _ s
  | counters => exact manage_answers countersBody_executes _ s
  | configWrite => exact manage_answers configWriteBody_executes _ s
  | tableReadWindow | tableReadEntries | tableReadActionRecord | tableReadTranslateBytes | tableReadDelimiterSet
  | tableReadPatternBytes | tableReadSweepItem => exact manage_answers (tableReadBody_executes _ _ _) _ s
  | tableWriteWindow => exact manage_answers windowWriteBody_executes _ s
  | tableWriteEntries => exact manage_answers entriesWriteBody_executes _ s
  | tableWriteActionRecord => exact manage_answers actionRecordWriteBody_executes _ s
  | tableWriteTranslateBytes => exact manage_answers translateWriteBody_executes _ s
  | tableWriteDelimiterSet => exact manage_answers delimiterWriteBody_executes _ s
  | tableWritePatternBytes => exact manage_answers patternWriteBody_executes _ s
  | tableWriteSweepItem => exact manage_answers sweepItemWriteBody_executes _ s
  | publish => exact manage_answers publishBody_executes _ s
  | accRead => exact manage_answers accReadBody_executes _ s
  | accSetup => exact manage_answers accSetupBody_executes _ s
  | accClear => exact manage_answers accClearBody_executes _ s
  | sweepLoad => exact manage_answers sweepLoadBody_executes _ s
  | sweepStart => exact manage_answers (sweepBody_executes startSweep_executes) _ s
  | sweepResume => exact manage_answers (sweepBody_executes resumeSweep_executes) _ s
  | sweepStop => exact manage_answers (sweepBody_executes fun k _ _ run => executes_of_done run (.sweepStopped k)) _ s
  | sweepRead => exact manage_answers (sweepBody_executes fun _ _ _ run => executes_of_done run .unchanged) _ s
  | mailboxTake => exact manage_answers mailboxTakeBody_executes _ s
  | bracketOpen => exact manage_answers bracketOpenBody_executes _ s
  | bracketClose => exact manage_answers bracketCloseBody_executes _ s
  | restart => exact execRestart_answers s
  | unknownCommand => exact manage_answers (refusal_executes _) _ s

/-- A property that the millisecond and every act keep, whatever waits in the queue of commands, is kept by a step. -/
theorem step_keeps {P Q : State → Prop} (hQueue : ∀ s q, P s → P { s with pending := q }) (hTick : ∀ s, P s → Q s.tick)
    (hAct : ∀ s t, P s → s.Act t → Q t) {s t : State} (h : P s) (hstep : step s = .next t) : Q t := by
  unfold step at hstep
  split at hstep
  · next c rest _ =>
    obtain ⟨u, hu, act⟩ := exec_answers c { s with pending := rest }
    rw [hu] at hstep
    cases hstep
    exact hAct _ _ (hQueue s rest h) act
  · cases hstep
    exact hTick s h

end Sys2Proof.Machine
end

/-! ## What the trunk side, a unit, a report, a grant and a character keep -/

section
namespace Sys2Proof.Machine

/-! ### The trunk side -/

/-- `P` is kept by the primitive acts of the trunk side, of a unit's delivery and of a response. -/
structure TrunkSideKeeps (P : State → Prop) : Prop where
  classifier : ∀ s d c, P s → P (s.setClassifier d c)
  drain : ∀ s, P s → P s.checkDrain
  place : ∀ s c, s.mb.entries.length < 8 → P s → P { s with mb := s.mb.place c }
  count : ∀ s k, P s → P (s.count k)
  field : ∀ s e, s.fsq.length < 16 → P s → P { s with fsq := s.fsq ++ [e] }
  trunk : ∀ s e, s.tp.tsq.length < 16 → P s → P (s.enterTsq e)
  report : ∀ s k silent verdict, P s → P (s.report k silent verdict)
  management : ∀ s m, P s → P { s with mu := m }
  bracketNotice : ∀ s, P s → P { s with la := { s.la with notice := none } }
  attentionNotice : ∀ s, P s → P { s with am := { s.am with pending := false, count := 0 } }
  sweepNotice : ∀ s k, P s → P { s with ss := s.ss.set k { s.ss.get k with notice := none } }
  line : ∀ s l, P s → P { s with tp := { s.tp with line := l, change := none } }
  noted : ∀ s, P s → P { s with tp := { s.tp with headCounted := true } }
  start : ∀ s e rest x, s.tp.tsq = e :: rest → P s →
    P { s with tp := { s.tp with sending := some x, tsq := rest, headCounted := false } }

namespace TrunkSideKeeps

variable {P : State → Prop} (h : TrunkSideKeeps P)
include h

theorem deliver (d : Direction) (u : UnitOfWork) (outputs : List Output) {s : State} (hs : P s) :
    P (Machine.deliver d u outputs s) :=
  deliver_keeps (P := P) (Q := P) (fun s hs => h.drain _ (h.classifier s d .idle hs))
    (fun s _ _ hs => h.classifier s d _ hs) h.place (fun s hs => h.count s _ hs) h.field h.trunk h.report outputs s hs

theorem resume (d : Direction) (u : UnitOfWork) (outputs : List Output) {s : State} (hs : P s) :
    P (s.resume d u outputs) :=
  h.deliver d u outputs (h.classifier s d _ hs)

theorem goOn (d : Direction) {s : State} (hs : P s) : P (s.goOn d) := by
  unfold State.goOn
  split
  · exact h.resume d _ _ hs
  · exact hs

theorem giveSlot (p : Producer) (e : TsqEntry) {s : State} (room : s.tp.tsq.length < 16) (hs : P s) :
    P (s.giveSlot p e) := by
  have entered : P (s.enterTsq e) := h.trunk s e room hs
  cases p with
  | mu => exact h.management _ .idle entered
  | uc => exact h.goOn .upstream entered
  | dc => exact h.goOn .downstream entered
  | la => exact h.bracketNotice _ entered
  | am => exact h.attentionNotice _ entered
  | ss k => exact h.sweepNotice _ k entered

theorem serviceTrunk {s : State} (hs : P s) : P s.serviceTrunk :=
  State.serviceTrunk_keeps (fun _ p e room _ hs => h.giveSlot p e room hs) h.line (fun s hs => h.count _ _ (h.noted s hs))
    h.start hs

theorem answer (e : TsqEntry) {s : State} (hs : P s) : P (s.answer e) :=
  State.answer_keeps (fun _ p e room _ hs => h.giveSlot p e room hs) h.line (fun s hs => h.count _ _ (h.noted s hs))
    h.start (fun s hs => h.management s _ hs) hs

theorem giveMailboxSlot {s : State} (hs : P s) : P s.giveMailboxSlot := by
  unfold State.giveMailboxSlot
  split
  · exact h.resume .upstream _ _ hs
  · exact h.resume .downstream _ _ hs
  · exact hs

theorem fillFieldQueue {s : State} (hs : P s) : P s.fillFieldQueue := by
  unfold State.fillFieldQueue
  split
  · exact h.resume .downstream _ _ hs
  · exact hs

end TrunkSideKeeps

theorem State.fillFieldQueue_frame (s : State) : s.UnitFrame s.fillFieldQueue := by
  unfold State.fillFieldQueue
  split
  · exact s.resume_frame .downstream _ _
  · exact .refl s

@[simp] theorem State.fillFieldQueue_flc (s : State) : s.fillFieldQueue.flc = s.flc := by rw [s.fillFieldQueue_frame]
@[simp] theorem State.fillFieldQueue_fp (s : State) : s.fillFieldQueue.fp = s.fp := by rw [s.fillFieldQueue_frame]
@[simp] theorem State.fillFieldQueue_la (s : State) : s.fillFieldQueue.la = s.la := by rw [s.fillFieldQueue_frame]

@[simp] theorem State.takeFieldChange_flc (s : State) : s.takeFieldChange.flc = s.flc := by
  unfold State.takeFieldChange
  split
  · split <;> rfl
  · rfl

/-- Whatever the frame of the trunk side leaves alone is kept. -/
theorem TrunkSideKeeps.of_frame {P : State → Prop} (hP : ∀ s t, s.TrunkFrame t → P s → P t) : TrunkSideKeeps P where
  classifier s d c := hP _ _ (State.setClassifier_frame s d c).serve.trunk
  drain s := hP _ _ (State.checkDrain_frame s).serve.trunk
  place _ _ _ := hP _ _ rfl
  count _ _ := hP _ _ rfl
  field _ _ _ := hP _ _ rfl
  trunk _ _ _ := hP _ _ rfl
  report s k silent verdict := hP _ _ (State.report_frame s k silent verdict).serve.trunk
  management _ _ := hP _ _ rfl
  bracketNotice _ := hP _ _ rfl
  attentionNotice _ := hP _ _ rfl
  sweepNotice _ _ := hP _ _ rfl
  line _ _ := hP _ _ rfl
  noted _ := hP _ _ rfl
  start _ _ _ _ _ := hP _ _ rfl

theorem TrunkSideKeeps.and {P Q : State → Prop} (hP : TrunkSideKeeps P) (hQ : TrunkSideKeeps Q) :
    TrunkSideKeeps fun s => P s ∧ Q s where
  classifier s d c h := ⟨hP.classifier s d c h.1, hQ.classifier s d c h.2⟩
  drain s h := ⟨hP.drain s h.1, hQ.drain s h.2⟩
  place s c room h := ⟨hP.place s c room h.1, hQ.place s c room h.2⟩
  count s k h := ⟨hP.count s k h.1, hQ.count s k h.2⟩
  field s e room h := ⟨hP.field s e room h.1, hQ.field s e room h.2⟩
  trunk s e room h := ⟨hP.trunk s e room h.1, hQ.trunk s e room h.2⟩
  report s k silent verdict h := ⟨hP.report s k silent verdict h.1, hQ.report s k silent verdict h.2⟩
  management s m h := ⟨hP.management s m h.1, hQ.management s m h.2⟩
  bracketNotice s h := ⟨hP.bracketNotice s h.1, hQ.bracketNotice s h.2⟩
  attentionNotice s h := ⟨hP.attentionNotice s h.1, hQ.attentionNotice s h.2⟩
  sweepNotice s k h := ⟨hP.sweepNotice s k h.1, hQ.sweepNotice s k h.2⟩
  line s l h := ⟨hP.line s l h.1, hQ.line s l h.2⟩
  noted s h := ⟨hP.noted s h.1, hQ.noted s h.2⟩
  start s e rest x head h := ⟨hP.start s e rest x head h.1, hQ.start s e rest x head h.2⟩

/-! ### Telegrams sorted (R9) -/

/-- A telegram that the trunk framer has ended is counted, or enters the queue that has room for it. -/
theorem sortTrunk_cases {Q : State → Prop} {s : State} (e : Ended) (hCount : ∀ k, Q (s.count k))
    (hMcq : ∀ t, s.tp.mcq.length < 4 → Q (s.setMcq (s.tp.mcq ++ [t])))
    (hTrq : ∀ t, s.tp.trq.length < 8 → Q (s.setTrq (s.tp.trq ++ [t]))) : Q (sortTrunk s e) := by
  cases e with
  | malformed => exact hCount _
  | corrupt => exact hCount _
  | good t =>
    rw [sortTrunk]
    split
    · exact hCount _
    · split
      · split
        · next room => exact hMcq t room
        · exact hCount _
      · split
        · next room => exact hTrq t room
        · exact hCount _

theorem foldl_sortTrunk_keeps {P : State → Prop} (hCount : ∀ s k, P s → P (s.count k))
    (hMcq : ∀ s t, s.tp.mcq.length < 4 → P s → P (s.setMcq (s.tp.mcq ++ [t])))
    (hTrq : ∀ s t, s.tp.trq.length < 8 → P s → P (s.setTrq (s.tp.trq ++ [t]))) (ended : List Ended) {s : State}
    (hs : P s) : P (ended.foldl sortTrunk s) := by
  induction ended generalizing s with
  | nil => exact hs
  | cons e ended ih =>
    exact ih (sortTrunk_cases e (fun k => hCount s k hs) (fun t room => hMcq s t room hs) fun t room => hTrq s t room hs)

/-! ### Units (R22) -/

/-- Dispatch and the stages may write the accumulator bank, by a defined record of the set, and may count a void action;
they touch nothing else. -/
theorem State.judge_cases {Q : State → Prop} {s : State} {d : Direction} {set : SetId} {t : Telegram} (hNot : Q s)
    (hVoid : Q (s.count .voidAction))
    (hRun : ∀ n rec, (s.ts.table set).record n = some rec →
      Q { s with ab := (runStages (s.ts.table set) rec t.attentionFlag t.payload s.ab).bank }) :
    Q (s.judge d set t).2 := by
  unfold State.judge
  dsimp only
  split
  · exact hNot
  · exact hNot
  · split
    · exact hVoid
    · next defined => exact hRun _ _ defined

/-- A downstream unit keeps what its judgement and its delivery keep. -/
theorem TrunkSideKeeps.downstreamUnit {P : State → Prop} (h : TrunkSideKeeps P) {s : State} (t : Telegram)
    (hJudge : P (s.judge .downstream s.ts.live t).2) : P (s.downstreamUnit t) := by
  refine h.resume _ _ _ ?_
  unfold State.countWithheld
  split
  · exact hJudge
  · exact h.count _ _ hJudge

/-- So does an upstream unit, which judges replies alone (R22, R31). -/
theorem TrunkSideKeeps.upstreamUnit {P : State → Prop} (h : TrunkSideKeeps P) {s : State} (r : OutcomeRecord)
    (hs : P s) (hJudge : ∀ t, P (s.judge .upstream s.ts.live t).2) : P (s.upstreamUnit r) := by
  unfold State.upstreamUnit
  split
  · exact h.resume _ _ _ (hJudge _)
  · exact h.resume _ _ _ hs
  · exact h.resume _ _ _ hs

/-! ### Grants (R122 to R126) -/

/-- A decision grants a side that has work, and moves the tenure as R123, R124 and R129 say: the counter is kept, spent by one
or set to the limit. -/
theorem State.decideGrant_eq_some {s : State} {side : Side} {la : LineArbiter} (h : s.decideGrant = some (side, la)) :
    s.hasWork side = true ∧ la = { s.la with holder := la.holder, counter := la.counter, grants := la.grants }
      ∧ (la.counter = s.la.counter ∨ la.counter = s.config.tenureLimit
        ∨ (la.counter = s.la.counter - 1 ∧ s.la.counter - 1 ≠ 0)) := by
  unfold State.decideGrant at h
  split at h
  · split at h
    · next work =>
      cases h
      exact ⟨work, rfl, .inl rfl⟩
    · cases h
  · split at h
    · next work =>
      cases h
      exact ⟨work.1, rfl, .inr (.inl rfl)⟩
    · split at h
      · next work =>
        split at h
        · cases h
          refine ⟨work, ?_⟩
          unfold LineArbiter.spend
          split
          · exact ⟨rfl, .inr (.inl rfl)⟩
          · next left => exact ⟨rfl, .inr (.inr ⟨rfl, left⟩)⟩
        · cases h
          exact ⟨work, rfl, .inl rfl⟩
      · split at h
        · next work =>
          cases h
          exact ⟨work, rfl, .inr (.inl rfl)⟩
        · cases h

/-- A grant starts the transaction of the head of FSQ or of the item of the next sweep, or halts that sweep on an undefined
item (R126, R136, R137). -/
theorem State.grant_cases {Q : State → Prop} {s : State} {side : Side} {la : LineArbiter}
    (hwork : s.hasWork side = true)
    (hTrunk : ∀ e rest, s.fsq = e :: rest → (e.telegram.station = 63 ∨ s.flc.frq.length < 4) →
      Q ((State.fillFieldQueue { s with la := la, fsq := rest }).startTransaction .trunk e.telegram.station
        e.telegram.function e.telegram.payload none))
    (hSweep : ∀ k (i : SweepItem), s.sweepCandidate k = true →
      Q (State.startTransaction
        { s with
          la := { la with pointer := k }
          ss := s.ss.set k { s.ss.get k with outstanding := some ((s.ss.get k).cursor, s.ts.live) } }
        (.sweep k) i.station i.function ((s.ts.table s.ts.live).patternRun i.pattern)
        (some ((s.ss.get k).cursor, s.ts.live))))
    (hHalt : ∀ k, s.sweepCandidate k = true →
      Q { s with
        la := { la with pointer := k }, ss := s.ss.set k ((s.ss.get k).halt .listVoid broadcastStation) }) :
    Q (s.grant side la) := by
  cases side with
  | trunk =>
    obtain ⟨e, rest, head, free⟩ := s.hasWork_trunk_iff.mp hwork
    simp only [State.grant, State.grantTrunk, head]
    exact hTrunk e rest head free
  | sweeps =>
    obtain ⟨k, next⟩ := Option.isSome_iff_exists.mp hwork
    have candidate : s.sweepCandidate k = true := List.find?_some next
    simp only [State.grant, next, State.grantSweep]
    split
    · exact hHalt k candidate
    · exact hSweep k _ candidate

/-! ### The field line (R7, R106 to R117) -/

/-- The counters have counted on, each step by one (R172). -/
def Counters.CountedTo (c c' : Counters) : Prop := ∃ ks : List Counter, c' = ks.foldl Counters.bump c

theorem Counters.CountedTo.refl (c : Counters) : c.CountedTo c := ⟨[], rfl⟩

theorem Counters.CountedTo.trans {c c' c'' : Counters} (h : c.CountedTo c') (h' : c'.CountedTo c'') :
    c.CountedTo c'' := by
  obtain ⟨ks, rfl⟩ := h
  obtain ⟨ks', rfl⟩ := h'
  exact ⟨ks ++ ks', (List.foldl_append ..).symm⟩

/-- What the field line may touch: its port, its controller and the counts. -/
def State.LineFrame (s t : State) : Prop :=
  t = { s with fp := t.fp, flc := t.flc, counters := t.counters } ∧ s.counters.CountedTo t.counters

theorem State.LineFrame.refl (s : State) : s.LineFrame s := ⟨rfl, .refl _⟩

theorem State.LineFrame.trans {s t u : State} (h : s.LineFrame t) (h' : t.LineFrame u) : s.LineFrame u := by
  obtain ⟨ht, hc⟩ := h
  obtain ⟨hu, hc'⟩ := h'
  exact ⟨by rw [hu, ht], hc.trans hc'⟩

theorem State.FieldFrame.line {s t : State} (h : s.FieldFrame t) : s.LineFrame t := by
  unfold State.FieldFrame at h
  rw [h]
  exact ⟨rfl, .refl _⟩

theorem State.count_lineFrame (s : State) (k : Counter) : s.LineFrame (s.count k) := ⟨rfl, [k], rfl⟩

/-- A mismatch is counted, and the controller awaits again, or the window's expiry, noted in RECEIVING, counts as NO_REPLY and
ends the transaction (R110). -/
theorem State.mismatch_cases {Q : State → Prop} {s : State}
    (hEnd : Q (((s.count .fieldMismatch).count .fieldNoReply).closeTransaction .noReply))
    (hAwait : s.flc.window ≠ .expired →
      Q { s.count .fieldMismatch with flc := { s.flc with state := .awaiting } }) : Q s.mismatch := by
  unfold State.mismatch
  dsimp only
  split
  · exact hEnd
  · next running => exact hAwait running

/-- The counts moved on, and nothing else. -/
def State.countAll (s : State) (ks : List Counter) : State := { s with counters := ks.foldl Counters.bump s.counters }

theorem State.countAll_lineFrame (s : State) (ks : List Counter) : s.LineFrame (s.countAll ks) := ⟨rfl, ks, rfl⟩

/-- A telegram of the field line ends the transaction that is being received, sends the controller back to AWAITING, or is
counted or discarded outside the reply phase. -/
theorem fieldEnded_cases {Q : State → Prop} {s : State} (e : Ended)
    (hEnd : ∀ ks o, s.flc.state = .receiving → Q ((s.countAll ks).closeTransaction o))
    (hAwait : s.flc.state = .receiving → s.flc.window ≠ .expired →
      Q { s.count .fieldMismatch with flc := { s.flc with state := .awaiting } })
    (hNoRecord : s.flc.record = none → Q s) (hOutside : s.flc.state ≠ .receiving → Q s)
    (hUnsolicited : s.flc.state ≠ .receiving → Q (s.count .fieldUnsolicited)) : Q (fieldEnded s e) := by
  unfold fieldEnded
  split
  · next receiving =>
    unfold State.judgeReply
    split
    · split
      · exact hEnd [] _ receiving
      · exact State.mismatch_cases (hEnd [.fieldMismatch, .fieldNoReply] _ receiving) (hAwait receiving)
    · next absent => exact hNoRecord absent
    · exact hEnd [.fieldCorrupt] _ receiving
  · next outside =>
    split
    · exact hUnsolicited outside
    · exact hOutside outside

/-- A framer in HUNT takes an opening byte and discards every other character (R4). -/
theorem Framer.take_of_hunt (c : Rx) : Framer.hunt.take c = (.hunt, none) ∨ Framer.hunt.take c = (.address, none) := by
  cases c with
  | broken => exact .inl rfl
  | byte b =>
    by_cases opening : b = openingByte
    · exact .inr (if_pos opening)
    · exact .inl (if_neg opening)

/-- A framer part-way through a telegram ends it and hunts for the next, or goes on with it (R4). -/
theorem Framer.take_of_underWay {f : Framer} (h : f ≠ .hunt) (c : Rx) :
    (∃ e, f.take c = (.hunt, some e)) ∨ ∃ f', f' ≠ .hunt ∧ f' ≠ .address ∧ f.take c = (f', none) := by
  cases c with
  | broken =>
    refine .inl ⟨.malformed, ?_⟩
    cases f with
    | hunt => exact absurd rfl h
    | address | function | length | payload => rfl
    | check a f n taken upper => cases upper <;> rfl
  | byte b =>
    cases f with
    | hunt => exact absurd rfl h
    | address => exact .inr ⟨_, by simp, by simp, rfl⟩
    | function a => exact .inr ⟨_, by simp, by simp, rfl⟩
    | length a f =>
      rw [Framer.take]
      split
      · exact .inl ⟨_, rfl⟩
      · split
        · exact .inr ⟨_, by simp, by simp, rfl⟩
        · exact .inr ⟨_, by simp, by simp, rfl⟩
    | payload a f n taken =>
      rw [Framer.take]
      split
      · exact .inr ⟨_, by simp, by simp, rfl⟩
      · exact .inr ⟨_, by simp, by simp, rfl⟩
    | check a f n taken upper =>
      cases upper with
      | none => exact .inr ⟨_, by simp, by simp, rfl⟩
      | some u => exact .inl ⟨_, rfl⟩

/-- The field framer moved, and nothing else. -/
def State.withFieldFramer (s : State) (f : Framer) : State := { s with fp := { s.fp with framer := f } }

/-- A character on the field line is not received while the part drives the line; else it moves the framer within HUNT or
within a telegram, opens a telegram, which is the reply in AWAITING, or ends the telegram under way (R4, R6, R108). -/
theorem fieldChar_cases {Q : State → Prop} {s : State} (c : Rx) (hDriven : s.fp.driverEnable = true → Q s)
    (hMove : ∀ f, s.fp.driverEnable = false → (f = .hunt ↔ s.fp.framer = .hunt) → Q (s.withFieldFramer f))
    (hOpen : s.fp.driverEnable = false → s.fp.framer = .hunt → s.flc.state ≠ .awaiting →
      Q (s.withFieldFramer .address))
    (hReply : s.fp.driverEnable = false → s.fp.framer = .hunt → s.flc.state = .awaiting →
      Q { s.withFieldFramer .address with flc := { s.flc with state := .receiving } })
    (hEnd : ∀ e, s.fp.driverEnable = false → s.fp.framer ≠ .hunt → Q (fieldEnded (s.withFieldFramer .hunt) e)) :
    Q (fieldChar s c) := by
  unfold fieldChar
  split
  · next driven => exact hDriven driven
  · next released =>
    rw [Bool.not_eq_true] at released
    by_cases hunt : s.fp.framer = .hunt
    · rcases Framer.take_of_hunt c with took | took
      · rw [hunt, took]
        dsimp only
        rw [State.noteOpening, if_neg (by simp)]
        exact hMove .hunt released (by simp [hunt])
      · rw [hunt, took]
        dsimp only
        rw [State.noteOpening]
        split
        · next opened => exact hReply released hunt opened.2.2
        · next outside => exact hOpen released hunt fun awaiting => outside ⟨rfl, rfl, awaiting⟩
    · have unopened : ∀ t : State, t.noteOpening s.fp.framer = t := fun t => if_neg fun opened => hunt opened.1
      rcases Framer.take_of_underWay hunt c with ⟨e, took⟩ | ⟨f, notHunt, -, took⟩
      · rw [took]
        dsimp only
        rw [unopened]
        exact hEnd e released hunt
      · rw [took]
        dsimp only
        rw [unopened]
        exact hMove f released (iff_of_false notHunt hunt)

theorem fieldEnded_frame (s : State) (e : Ended) : s.LineFrame (fieldEnded s e) := by
  refine fieldEnded_cases e (fun ks o _ => ?_) (fun _ _ => ⟨rfl, [.fieldMismatch], rfl⟩) (fun _ => .refl s)
    (fun _ => .refl s)
    fun _ => State.count_lineFrame s _
  exact (s.countAll_lineFrame ks).trans (State.closeTransaction_frame _ o).line

theorem State.withFieldFramer_frame (s : State) (f : Framer) : s.LineFrame (s.withFieldFramer f) := ⟨rfl, .refl _⟩

theorem fieldChar_frame (s : State) (c : Rx) : s.LineFrame (fieldChar s c) :=
  fieldChar_cases c (fun _ => .refl s) (fun f _ _ => s.withFieldFramer_frame f) (fun _ _ _ => s.withFieldFramer_frame _)
    (fun _ _ _ => ⟨rfl, .refl _⟩) fun e _ _ => (s.withFieldFramer_frame _).trans (fieldEnded_frame _ e)

theorem foldl_fieldChar_keeps {P : State → Prop} (hChar : ∀ s c, P s → P (fieldChar s c)) (chars : List Rx) {s : State}
    (hs : P s) : P (chars.foldl fieldChar s) := by
  induction chars generalizing s with
  | nil => exact hs
  | cons c chars ih => exact ih (hChar s c hs)

theorem State.LineAct.frame {s t : State} (h : s.LineAct t) : s.LineFrame t := by
  cases h with
  | requestSent | replyBegun | telegramBegun | windowNoted => exact ⟨rfl, .refl _⟩
  | broadcastSent =>
    refine .trans (t := { s with fp := { s.fp with driverEnable := false, sending := none } }) ⟨rfl, .refl _⟩ ?_
    exact (State.enterSettling_frame _).line
  | charactersTaken chars =>
    refine .trans ?_ (State.takeFieldChange_frame _).line
    exact foldl_fieldChar_keeps (fun t c h => h.trans (fieldChar_frame t c)) chars (.refl s)
  | gapPassed =>
    exact ((s.withFieldFramer_frame .hunt).trans (fieldEnded_frame _ _)).trans (State.takeFieldChange_frame _).line
  | noReply => exact (State.count_lineFrame s _).trans (State.closeTransaction_frame _ _).line
  | settled =>
    refine .trans (t := { s with
      flc := { s.flc with state := .idle, record := none, window := .stopped, settle := none } }) ⟨rfl, .refl _⟩ ?_
    exact (State.takeFieldChange_frame _).line

end Sys2Proof.Machine
end

/-! ## Every command completes -/

section
namespace Sys2Proof.Machine

/-- The queue of commands is in no frame: the trunk side keeps it. -/
theorem trunkSide_keeps_pending (q : List Instr) : TrunkSideKeeps fun s => s.pending = q :=
  .of_frame fun s t frame h => by
    unfold State.TrunkFrame at frame
    rw [frame]
    exact h

theorem State.Executes.pending {s t : State} (h : s.Executes t) : t.pending = s.pending := by
  cases h with
  | configured image c =>
    rw [State.configure_eq]
  | mailboxTaken e others => exact (trunkSide_keeps_pending s.pending).giveMailboxSlot rfl
  | _ => rfl

theorem State.triggerBound_pending (s : State) : s.triggerBound.pending = s.pending := by
  unfold State.triggerBound
  split <;> rfl

/-- No act touches the queue of the commands behind it. -/
theorem State.Act.pending {s t : State} (h : s.Act t) : t.pending = s.pending := by
  have keeps := trunkSide_keeps_pending s.pending
  have judged : ∀ (u : State) d set t, u.pending = s.pending → (u.judge d set t).2.pending = s.pending :=
    fun u d set t hu => State.judge_cases (Q := fun v => v.pending = s.pending) hu hu fun _ _ _ => hu
  cases h with
  | onFieldLine t act => rw [act.frame.1]
  | trunkTelegramsEnded f ended =>
    refine keeps.serviceTrunk ?_
    exact foldl_sortTrunk_keeps keeps.count (fun _ _ _ hs => hs) (fun _ _ _ hs => hs) ended rfl
  | pauseReleased | trunkTelegramSent | bracketExpired => exact keeps.serviceTrunk rfl
  | requestTaken t rest => exact keeps.serviceTrunk (keeps.downstreamUnit t (judged _ _ _ _ rfl))
  | outcomeTaken r rest => exact keeps.serviceTrunk (keeps.upstreamUnit r rfl fun t => judged _ _ _ _ rfl)
  | copyLost d u => exact keeps.serviceTrunk (keeps.resume _ _ _ rfl)
  | granted side la idle decided =>
    refine keeps.serviceTrunk (State.grant_cases (Q := fun t => t.pending = s.pending)
      (State.decideGrant_eq_some decided).1 (fun e rest _ _ => ?_) (fun _ _ _ => rfl) fun _ _ => rfl)
    exact keeps.fillFieldQueue rfl
  | attentionTaken =>
    refine keeps.serviceTrunk ?_
    rw [State.triggerBound_pending]
  | restarted => exact keeps.serviceTrunk (keeps.drain _ rfl)
  | commanded t rest u e head effect => exact keeps.answer e effect.pending
  | _ => rfl

/-- Settles O3: every command answers by one of the acts, and no act touches the queue. -/
theorem everyCommandCompletes : Obligations.EveryCommandCompletes := fun c s =>
  have ⟨t, answered, act⟩ := exec_answers c s
  ⟨t, answered, act.pending⟩

end Sys2Proof.Machine
end

/-! ## The queues keep within their capacities -/

section
namespace Sys2Proof.Machine

/-- TSQ, FSQ and the mailbox, which the trunk side and the units fill, are within their capacities. -/
def State.FilledQueuesBounded (s : State) : Prop :=
  s.tp.tsq.length ≤ 16 ∧ s.fsq.length ≤ 16 ∧ s.mb.entries.length ≤ 8

/-- FRQ is within its capacity, and has room for the outcome that is due (R105, R114). -/
def State.OutcomesBounded (s : State) : Prop := s.flc.frq.length ≤ 4 ∧ (s.outcomeDue → s.flc.frq.length ≤ 3)

theorem State.queuesBounded_iff (s : State) :
    s.QueuesBounded ↔
      s.FilledQueuesBounded ∧ (s.tp.trq.length ≤ 8 ∧ s.tp.mcq.length ≤ 4) ∧ s.OutcomesBounded := by
  constructor
  · rintro ⟨trq, mcq, tsq, fsq, frq, mailbox, due⟩
    exact ⟨⟨tsq, fsq, mailbox⟩, ⟨trq, mcq⟩, frq, due⟩
  · rintro ⟨⟨tsq, fsq, mailbox⟩, ⟨trq, mcq⟩, frq, due⟩
    exact ⟨trq, mcq, tsq, fsq, frq, mailbox, due⟩

/-- Each of the three takes an entry only where it has room. -/
theorem trunkSide_keeps_filledQueues : TrunkSideKeeps State.FilledQueuesBounded where
  classifier s d c h := by cases d <;> exact h
  drain s h := by
    rw [State.FilledQueuesBounded, State.checkDrain_tp, State.checkDrain_fsq, State.checkDrain_mb]
    exact h
  place s c room h := by
    obtain ⟨tsq, fsq, -⟩ := h
    exact ⟨tsq, fsq, by simpa [Mailbox.place] using room⟩
  count _ _ h := h
  field s e room h := by
    obtain ⟨tsq, -, mailbox⟩ := h
    exact ⟨tsq, by simpa using room, mailbox⟩
  trunk s e room h := by
    obtain ⟨-, fsq, mailbox⟩ := h
    exact ⟨by simpa using room, fsq, mailbox⟩
  report s k silent verdict h := by
    unfold State.report
    dsimp only
    split
    · rw [State.FilledQueuesBounded, State.checkDrain_tp, State.checkDrain_fsq, State.checkDrain_mb]
      exact h
    · exact h
  management _ _ h := h
  bracketNotice _ h := h
  attentionNotice _ h := h
  sweepNotice _ _ h := h
  line _ _ h := h
  noted _ h := h
  start s e rest x head h := by
    obtain ⟨tsq, fsq, mailbox⟩ := h
    rw [head, List.length_cons] at tsq
    exact ⟨by dsimp only; omega, fsq, mailbox⟩

theorem trunkSide_keeps_queuesBounded : TrunkSideKeeps State.QueuesBounded := by
  rw [show State.QueuesBounded = _ from funext fun s => propext s.queuesBounded_iff]
  refine trunkSide_keeps_filledQueues.and (.and (.of_frame fun s t frame h => ?_) (.of_frame fun s t frame h => ?_))
  · rw [State.TrunkFrame] at frame
    rw [frame]
    exact h
  · rw [State.TrunkFrame] at frame
    rw [frame]
    exact h

/-- A state whose queues are no longer, and whose field line is the same, is within the capacities too. -/
theorem State.QueuesBounded.of_le {s t : State} (h : s.QueuesBounded)
    (trq : t.tp.trq.length ≤ s.tp.trq.length := by exact le_rfl)
    (mcq : t.tp.mcq.length ≤ s.tp.mcq.length := by exact le_rfl)
    (tsq : t.tp.tsq.length ≤ s.tp.tsq.length := by exact le_rfl) (fsq : t.fsq.length ≤ s.fsq.length := by exact le_rfl)
    (mailbox : t.mb.entries.length ≤ s.mb.entries.length := by exact le_rfl)
    (frq : t.flc.frq.length ≤ s.flc.frq.length := by exact le_rfl) (due : t.outcomeDue → s.outcomeDue := by exact id) :
    t.QueuesBounded :=
  ⟨trq.trans h.trq, mcq.trans h.mcq, tsq.trans h.tsq, fsq.trans h.fsq, frq.trans h.frq, mailbox.trans h.mailbox,
    fun d => frq.trans (h.due (due d))⟩

/-! ### The field line and FRQ (R113 to R116) -/

/-- Settling, or its end in the same act, leaves no outcome due. -/
theorem State.enterSettling_outcomesBounded {s : State} (h : s.flc.frq.length ≤ 4) : s.enterSettling.OutcomesBounded := by
  unfold State.enterSettling
  split
  · rw [State.OutcomesBounded, State.outcomeDue, State.takeFieldChange_flc]
    exact ⟨h, by simp⟩
  · exact ⟨h, by simp [State.outcomeDue]⟩

/-- An outcome enters the room that was kept for it. -/
theorem State.closeTransaction_outcomesBounded {s : State} (h : s.flc.frq.length ≤ 3) (o : FieldOutcome) :
    (s.closeTransaction o).OutcomesBounded := by
  unfold State.closeTransaction
  split
  · split
    · exact State.enterSettling_outcomesBounded (by omega)
    · exact State.enterSettling_outcomesBounded (by simpa using Nat.lt_succ_of_le h)
  · exact State.enterSettling_outcomesBounded (by omega)

theorem fieldEnded_outcomesBounded {s : State} (h : s.OutcomesBounded) (e : Ended) :
    (fieldEnded s e).OutcomesBounded := by
  refine fieldEnded_cases e (fun ks o receiving => ?_) (fun receiving _ => ⟨h.1, fun _ => h.2 (.inr (.inl receiving))⟩)
    (fun _ => h) (fun _ => h) fun _ => h
  exact State.closeTransaction_outcomesBounded (s := s.countAll ks) (h.2 (.inr (.inl receiving))) o

theorem fieldChar_outcomesBounded {s : State} (h : s.OutcomesBounded) (c : Rx) : (fieldChar s c).OutcomesBounded :=
  fieldChar_cases c (fun _ => h) (fun _ _ _ => h) (fun _ _ _ => h) (fun _ _ awaiting => ⟨h.1, fun _ => h.2 (.inl awaiting)⟩)
    fun e _ _ => fieldEnded_outcomesBounded (s := s.withFieldFramer .hunt) h e

theorem State.takeFieldChange_outcomesBounded {s : State} (h : s.OutcomesBounded) :
    s.takeFieldChange.OutcomesBounded := by
  rw [State.OutcomesBounded, State.outcomeDue, State.takeFieldChange_flc]
  exact h

theorem State.LineAct.outcomesBounded {s t : State} (act : s.LineAct t) (h : s.OutcomesBounded) : t.OutcomesBounded := by
  cases act with
  | requestSent r sending record answered => exact ⟨h.1, fun _ => h.2 (.inr (.inr ⟨sending, r, record, answered⟩))⟩
  | broadcastSent => exact State.enterSettling_outcomesBounded h.1
  | replyBegun _ awaiting => exact ⟨h.1, fun _ => h.2 (.inl awaiting)⟩
  | telegramBegun => exact h
  | charactersTaken chars =>
    exact State.takeFieldChange_outcomesBounded
      (foldl_fieldChar_keeps (P := State.OutcomesBounded) (fun _ c h => fieldChar_outcomesBounded h c) chars h)
  | gapPassed =>
    exact State.takeFieldChange_outcomesBounded (fieldEnded_outcomesBounded (s := s.withFieldFramer .hunt) h .malformed)
  | noReply n awaiting => exact State.closeTransaction_outcomesBounded (s := s.count _) (h.2 (.inl awaiting)) _
  | windowNoted n receiving => exact ⟨h.1, fun _ => h.2 (.inr (.inl receiving))⟩
  | settled => exact State.takeFieldChange_outcomesBounded ⟨h.1, by simp [State.outcomeDue]⟩

theorem State.LineAct.queuesBounded {s t : State} (act : s.LineAct t) (h : s.QueuesBounded) : t.QueuesBounded := by
  obtain ⟨filled, telegrams, outcomes⟩ := s.queuesBounded_iff.mp h
  have outcomes' := act.outcomesBounded outcomes
  have frame := act.frame.1
  rw [State.queuesBounded_iff, State.FilledQueuesBounded, show t.tp = s.tp by rw [frame], show t.fsq = s.fsq by rw [frame],
    show t.mb = s.mb by rw [frame]]
  exact ⟨filled, telegrams, outcomes'⟩

/-- A granted transaction leaves room for its outcome, unless it is a broadcast, which has none (R121). -/
theorem State.QueuesBounded.startTransaction {s : State} (h : s.QueuesBounded) {station : Station}
    (free : station = 63 ∨ s.flc.frq.length < 4) (owner : Owner) (function : Byte) (payload : List Byte)
    (item : Option (Nat × SetId)) : (s.startTransaction owner station function payload item).QueuesBounded := by
  refine ⟨h.trq, h.mcq, h.tsq, h.fsq, h.frq, h.mailbox, fun due => ?_⟩
  rcases free with rfl | room
  · simp [State.outcomeDue, State.startTransaction, broadcastStation] at due
  · exact Nat.le_of_lt_succ room

/-! ### The acts -/

theorem State.QueuesBounded.judge {s : State} (h : s.QueuesBounded) (d : Direction) (set : SetId) (t : Telegram) :
    (s.judge d set t).2.QueuesBounded :=
  State.judge_cases h h.of_le fun _ _ _ => h.of_le

theorem State.Executes.queuesBounded {s t : State} (effect : s.Executes t) (h : s.QueuesBounded) : t.QueuesBounded := by
  cases effect with
  | unchanged => exact h
  | configured image c =>
    rw [State.configure_eq]
    refine h.of_le (trq := ?_) (mcq := ?_) (tsq := ?_) <;> dsimp only <;> split <;> simp
  | mailboxTaken e others oldest =>
    exact trunkSide_keeps_queuesBounded.giveMailboxSlot (h.of_le (mailbox := by simp [State.dropOldest, oldest]))
  | _ => exact h.of_le

theorem State.Act.queuesBounded {s t : State} (act : s.Act t) (h : s.QueuesBounded) : t.QueuesBounded := by
  have keeps := trunkSide_keeps_queuesBounded
  cases act with
  | nothing => exact h
  | poweredOn => constructor <;> simp [State.powerOn, TrunkPort.powerOn, FieldLineController.powerOn, Mailbox.powerOn]
  | onFieldLine t act => exact act.queuesBounded h
  | trunkTelegramsEnded f ended =>
    refine keeps.serviceTrunk (foldl_sortTrunk_keeps keeps.count (fun s t room h => ?_) (fun s t room h => ?_) ended
      h.of_le)
    · exact ⟨h.trq, by simpa using room, h.tsq, h.fsq, h.frq, h.mailbox, h.due⟩
    · exact ⟨by simpa using room, h.mcq, h.tsq, h.fsq, h.frq, h.mailbox, h.due⟩
  | trunkTelegramBegun | pauseAsserted | copyEnded | periodExpired | attentionKept => exact h.of_le
  | pauseReleased | trunkTelegramSent | bracketExpired => exact keeps.serviceTrunk h.of_le
  | requestTaken t rest _ head =>
    have taken : (s.setTrq rest).QueuesBounded := h.of_le (trq := by simp [head])
    exact keeps.serviceTrunk (keeps.downstreamUnit t (taken.judge _ _ _))
  | outcomeTaken r rest _ head =>
    have taken : State.QueuesBounded { s with flc := { s.flc with frq := rest } } := h.of_le (frq := by simp [head])
    exact keeps.serviceTrunk (keeps.upstreamUnit r taken fun t => taken.judge _ _ _)
  | copyLost d u => exact keeps.serviceTrunk (keeps.resume _ _ _ (keeps.count _ _ h))
  | granted side la _ decided =>
    refine keeps.serviceTrunk (State.grant_cases (State.decideGrant_eq_some decided).1 (fun e rest head free => ?_)
      (fun k i candidate => ?_) fun k _ => h.of_le)
    · have taken : State.QueuesBounded { s with la := la, fsq := rest } := h.of_le (fsq := by simp [head])
      refine (keeps.fillFieldQueue taken).startTransaction (free.imp_right fun room => ?_) ..
      rwa [State.fillFieldQueue_flc]
    · obtain ⟨-, -, room⟩ := (s.sweepCandidate_iff k).mp candidate
      refine State.QueuesBounded.startTransaction ?_ (.inr ?_) ..
      · exact h.of_le
      · exact room
  | attentionTaken =>
    refine keeps.serviceTrunk ?_
    unfold State.triggerBound
    split
    · exact h.of_le
    · exact h.of_le
  | restarted =>
    refine keeps.serviceTrunk (keeps.drain _ ?_)
    constructor <;> simp [TrunkPort.restart, TrunkPort.compareHold, FieldLineController.restart, Mailbox.powerOn]
  | commanded t rest u e head effect =>
    have taken : (s.takeCommand rest).QueuesBounded := h.of_le (mcq := by simp [head.2])
    exact keeps.answer e (effect.queuesBounded taken)

/-- Settles O54: a queue takes an entry only where it has room, and a grant keeps room in FRQ for the outcome it makes due. -/
theorem stepKeepsQueuesBounded : Obligations.StepKeepsQueuesBounded := fun _ _ =>
  step_keeps (fun _ _ h => h.of_le) (fun _ h => h.of_le) fun _ _ h act => act.queuesBounded h

end Sys2Proof.Machine
end

/-! ## The field line's state, record, timers, driver and framer agree -/

section
namespace Sys2Proof.Machine

/-- The agreement reads the controller, the driver, the field transmitter and the field framer, and nothing else. -/
theorem State.FieldLineConsistent.congr {s t : State} (h : s.FieldLineConsistent)
    (state : t.flc.state = s.flc.state := by exact rfl)
    (record : t.flc.record = none ↔ s.flc.record = none := by exact Iff.rfl)
    (window : t.flc.window = s.flc.window := by exact rfl) (settle : t.flc.settle = s.flc.settle := by exact rfl)
    (driver : t.fp.driverEnable = s.fp.driverEnable := by exact rfl)
    (sending : t.fp.sending = s.fp.sending := by exact rfl) (framer : t.fp.framer = s.fp.framer := by exact rfl) :
    t.FieldLineConsistent where
  record := by rw [record, state]; exact h.record
  driver := by rw [driver, state]; exact h.driver
  sending := by rw [sending, state]; exact h.sending
  awaitingFramer := by rw [state, framer]; exact h.awaitingFramer
  receivingFramer := by rw [state, framer]; exact h.receivingFramer
  sendingFramer := by rw [state, framer]; exact h.sendingFramer
  window := by rw [state, window]; exact h.window
  expired := by rw [state, window]; exact h.expired
  settle := by rw [state, settle]; exact h.settle

theorem trunkSide_keeps_fieldLine : TrunkSideKeeps State.FieldLineConsistent :=
  .of_frame fun s t frame h => by
    rw [State.TrunkFrame] at frame
    rw [frame]
    exact h.congr

/-- No request is on the line: the driver is released, and the field transmitter is idle. -/
def State.LineReleased (s : State) : Prop := s.fp.driverEnable = false ∧ s.fp.sending = none

theorem State.FieldLineConsistent.released {s : State} (h : s.FieldLineConsistent) (state : s.flc.state ≠ .sending) :
    s.LineReleased :=
  ⟨by simpa using mt h.driver.mp state, by simpa using mt h.sending.mp state⟩

theorem State.takeFieldChange_consistent {s : State} (h : s.FieldLineConsistent) :
    s.takeFieldChange.FieldLineConsistent := by
  unfold State.takeFieldChange
  split
  · split
    · exact h.congr
    · exact h
  · exact h

/-- Once the request is off the line, an IDLE controller with no record and no timer agrees with any framer. -/
theorem fieldLineConsistent_of_idle {s : State} (released : s.LineReleased) (state : s.flc.state = .idle)
    (record : s.flc.record = none) (window : s.flc.window = .stopped) (settle : s.flc.settle = none) :
    s.FieldLineConsistent := by
  obtain ⟨driver, sending⟩ := released
  constructor <;> simp [*]

theorem fieldLineConsistent_of_settling {s : State} (released : s.LineReleased) (state : s.flc.state = .settling)
    (record : s.flc.record ≠ none) (window : s.flc.window = .stopped) (settle : s.flc.settle ≠ none) :
    s.FieldLineConsistent := by
  obtain ⟨driver, sending⟩ := released
  constructor <;> simp [*]

theorem State.enterSettling_consistent {s : State} (released : s.LineReleased) (record : s.flc.record ≠ none) :
    s.enterSettling.FieldLineConsistent := by
  unfold State.enterSettling
  split
  · exact State.takeFieldChange_consistent (fieldLineConsistent_of_idle released rfl rfl rfl rfl)
  · exact fieldLineConsistent_of_settling released rfl record rfl (Option.some_ne_none _)

theorem State.closeTransaction_consistent {s : State} (released : s.LineReleased) (record : s.flc.record ≠ none)
    (o : FieldOutcome) : (s.closeTransaction o).FieldLineConsistent := by
  unfold State.closeTransaction
  split
  · split
    · exact State.enterSettling_consistent released record
    · next there _ => exact State.enterSettling_consistent released (by simp [there])
  · exact State.enterSettling_consistent released record

/-! ### A telegram under way, and its end (R4, R7, R109, R110) -/

/-- A telegram that ends leaves the framer in HUNT: the reply of a transaction that is being received is then judged, and
outside RECEIVING all agrees as it stands. -/
theorem fieldEnded_consistent {s : State} (h : s.FieldLineConsistent) (released : s.fp.driverEnable = false)
    (e : Ended) : (fieldEnded (s.withFieldFramer .hunt) e).FieldLineConsistent := by
  have notSending : s.flc.state ≠ .sending := mt h.driver.mpr (by simp [released])
  have off : s.LineReleased := h.released notSending
  have outside : ∀ t : State, t.flc = s.flc → t.fp = (s.withFieldFramer .hunt).fp → s.flc.state ≠ .receiving →
      t.FieldLineConsistent := fun t flc fp elsewhere => by
    refine State.FieldLineConsistent.congr (s := s.withFieldFramer .hunt) ?_ (by rw [flc]; rfl) (by rw [flc]; rfl)
      (by rw [flc]; rfl) (by rw [flc]; rfl) (by rw [fp]) (by rw [fp]) (by rw [fp])
    exact { h with
      awaitingFramer := fun _ => rfl
      receivingFramer := fun receiving => absurd receiving elsewhere
      sendingFramer := fun _ => rfl }
  refine fieldEnded_cases e (fun ks o receiving => ?close) (fun receiving running => ?await) (fun absent => ?noRecord)
    (outside _ rfl rfl) (outside _ rfl rfl)
  case close =>
    refine State.closeTransaction_consistent (s := (s.withFieldFramer .hunt).countAll ks) off (mt h.record.mp ?_) o
    rw [show s.flc.state = .receiving from receiving]
    simp
  case await =>
    have receiving : s.flc.state = .receiving := receiving
    have window := h.window
    have settle := h.settle
    have record := h.record
    rw [receiving] at window settle record
    constructor <;> simp_all [State.withFieldFramer, State.LineReleased]
  case noRecord =>
    refine outside _ rfl rfl ?_
    rw [h.record.mp absent]
    simp

/-- An opening byte outside AWAITING begins an unsolicited telegram (R7, R108). -/
theorem State.FieldLineConsistent.telegramBegun {s : State} (h : s.FieldLineConsistent)
    (released : s.fp.driverEnable = false) (outside : s.flc.state ≠ .awaiting) :
    (s.withFieldFramer .address).FieldLineConsistent :=
  { h with
    awaitingFramer := fun state => absurd state outside
    receivingFramer := fun _ => Framer.noConfusion
    sendingFramer := fun state => absurd (h.driver.mpr state) (by simp [released]) }

/-- In AWAITING it begins the reply (R108). -/
theorem State.FieldLineConsistent.replyBegun {s : State} (h : s.FieldLineConsistent)
    (awaiting : s.flc.state = .awaiting) :
    State.FieldLineConsistent
      { s with fp := { s.fp with framer := .address }, flc := { s.flc with state := .receiving } } where
  record := by simpa [awaiting] using h.record
  driver := by simpa [awaiting] using h.driver
  sending := by simpa [awaiting] using h.sending
  awaitingFramer := by simp
  receivingFramer := fun _ => Framer.noConfusion
  sendingFramer := by simp
  window := by simpa [awaiting] using h.window
  expired := fun _ => rfl
  settle := by simpa [awaiting] using h.settle

theorem fieldChar_consistent {s : State} (h : s.FieldLineConsistent) (c : Rx) : (fieldChar s c).FieldLineConsistent := by
  refine fieldChar_cases c (fun _ => h) (fun f released within => ?_)
    (fun released _ outside => h.telegramBegun released outside) (fun _ _ awaiting => h.replyBegun awaiting)
    fun e released _ => fieldEnded_consistent h released e
  exact { h with
    awaitingFramer := fun state => within.mpr (h.awaitingFramer state)
    receivingFramer := fun state => mt within.mp (h.receivingFramer state)
    sendingFramer := fun state => within.mpr (h.sendingFramer state) }

/-! ### The acts -/

theorem State.LineAct.consistent {s t : State} (act : s.LineAct t) (h : s.FieldLineConsistent) :
    t.FieldLineConsistent := by
  have recorded : s.flc.state ≠ .idle → s.flc.record ≠ none := mt h.record.mp
  cases act with
  | requestSent r sending record =>
    have settle := h.settle
    constructor <;> simp_all
    exact h.sendingFramer sending
  | broadcastSent r sending => exact State.enterSettling_consistent ⟨rfl, rfl⟩ (recorded (by simp [sending]))
  | replyBegun _ awaiting => exact h.replyBegun awaiting
  | telegramBegun _ outside released => exact h.telegramBegun released outside
  | charactersTaken chars =>
    exact State.takeFieldChange_consistent
      (foldl_fieldChar_keeps (P := State.FieldLineConsistent) (fun _ c h => fieldChar_consistent h c) chars h)
  | gapPassed underWay =>
    refine State.takeFieldChange_consistent (fieldEnded_consistent h ?_ .malformed)
    simpa using mt h.driver.mp (mt h.sendingFramer underWay)
  | noReply n awaiting =>
    exact State.closeTransaction_consistent (s := s.count _) (h.released (by simp [awaiting]))
      (recorded (by simp [awaiting])) _
  | windowNoted n receiving =>
    exact { h with
      window := iff_of_true WindowTimer.noConfusion (.inr receiving)
      expired := fun _ => receiving }
  | settled settling =>
    exact State.takeFieldChange_consistent
      (fieldLineConsistent_of_idle (h.released (by simp [settling])) rfl rfl rfl rfl)

theorem State.FieldLineConsistent.startTransaction {s : State} (owner : Owner) (station : Station) (function : Byte)
    (payload : List Byte) (item : Option (Nat × SetId)) :
    (s.startTransaction owner station function payload item).FieldLineConsistent := by
  constructor <;> simp [State.startTransaction]

theorem State.judge_consistent {s : State} (h : s.FieldLineConsistent) (d : Direction) (set : SetId) (t : Telegram) :
    (s.judge d set t).2.FieldLineConsistent :=
  State.judge_cases h h.congr fun _ _ _ => h.congr

theorem State.Executes.consistent {s t : State} (effect : s.Executes t) (h : s.FieldLineConsistent) :
    t.FieldLineConsistent := by
  cases effect with
  | unchanged => exact h
  | configured image c =>
    unfold State.configure
    exact State.takeFieldChange_consistent h.congr
  | mailboxTaken e others => exact trunkSide_keeps_fieldLine.giveMailboxSlot h.congr
  | _ => exact h.congr

theorem State.Act.consistent {s t : State} (act : s.Act t) (h : s.FieldLineConsistent) : t.FieldLineConsistent := by
  have keeps := trunkSide_keeps_fieldLine
  cases act with
  | nothing => exact h
  | poweredOn => exact fieldLineConsistent_of_idle ⟨rfl, rfl⟩ rfl rfl rfl rfl
  | onFieldLine t act => exact act.consistent h
  | trunkTelegramsEnded f ended =>
    exact keeps.serviceTrunk
      (foldl_sortTrunk_keeps keeps.count (fun _ _ _ h => h.congr) (fun _ _ _ h => h.congr) ended h.congr)
  | trunkTelegramBegun | pauseAsserted | copyEnded | periodExpired | attentionKept => exact h.congr
  | pauseReleased | trunkTelegramSent | bracketExpired => exact keeps.serviceTrunk h.congr
  | requestTaken t rest =>
    have taken : (s.setTrq rest).FieldLineConsistent := h.congr
    exact keeps.serviceTrunk (keeps.downstreamUnit t (State.judge_consistent taken _ _ _))
  | outcomeTaken r rest =>
    have taken : State.FieldLineConsistent { s with flc := { s.flc with frq := rest } } := h.congr
    exact keeps.serviceTrunk (keeps.upstreamUnit r taken fun t => State.judge_consistent taken _ _ _)
  | copyLost d u => exact keeps.serviceTrunk (keeps.resume _ _ _ (keeps.count _ _ h))
  | granted side la _ decided =>
    exact keeps.serviceTrunk (State.grant_cases (Q := State.FieldLineConsistent) (State.decideGrant_eq_some decided).1
      (fun _ _ _ _ => .startTransaction ..) (fun _ _ _ => .startTransaction ..) fun _ _ => h.congr)
  | attentionTaken =>
    refine keeps.serviceTrunk ?_
    unfold State.triggerBound
    split
    · exact h.congr
    · exact h.congr
  | restarted => exact keeps.serviceTrunk (keeps.drain _ (h.congr (record := Option.map_eq_none_iff)))
  | commanded t rest u e head effect =>
    have taken : (s.takeCommand rest).FieldLineConsistent := h.congr
    exact keeps.answer e (effect.consistent taken)

/-- A millisecond moves the timers that run, and starts and stops none. -/
theorem State.FieldLineConsistent.tick {s : State} (h : s.FieldLineConsistent) : s.tick.FieldLineConsistent :=
  { h with
    window := by
      refine Iff.trans ?_ h.window
      simp only [State.tick]
      cases s.flc.window <;> simp [WindowTimer.tick]
    expired := by
      refine fun expired => h.expired ?_
      simp only [State.tick] at expired
      cases window : s.flc.window <;> simp [WindowTimer.tick, window] at expired ⊢
    settle := by simpa [State.tick] using h.settle }

/-- Settles O55: each act of the field line moves state, record, timers, driver and framer together, and no other act touches
them but a grant, which starts all of them afresh. -/
theorem stepKeepsFieldLineConsistent : Obligations.StepKeepsFieldLineConsistent := fun _ _ =>
  step_keeps (fun _ _ h => h.congr) (fun _ h => h.tick) fun _ _ h act => act.consistent h

end Sys2Proof.Machine
end

/-! ## Every sweep keeps its position, its outstanding item and its timer consistent -/

section
namespace Sys2Proof.Machine

/-! ### One context -/

/-- The position lies in the pass, whatever the state (R134, R135). -/
structure Sweep.InPass (c : Sweep) : Prop where
  nonempty : 1 ≤ c.count
  above : c.first ≤ c.cursor
  below : c.cursor ≤ c.first + c.count
  top : c.first + c.count ≤ 256
  remaining : c.remaining = c.first + c.count - c.cursor

/-- Position and period timer agree with the state; what is outstanding is not spoken of. -/
structure Sweep.Settled (c : Sweep) : Prop where
  inPass : c.InPass
  running : c.state = .running → 1 ≤ c.remaining
  timer : c.periodTimer ≠ none ↔ c.state = .waiting

/-- A sweep context is consistent. -/
structure Sweep.Consistent (c : Sweep) : Prop where
  settled : c.Settled
  outstanding : c.outstanding ≠ none → c.state = .running

theorem Sweep.consistent_iff (c : Sweep) : c.Consistent ↔ c.PositionOk ∧ c.TimersOk := by
  constructor
  · rintro ⟨⟨⟨nonempty, above, below, top, remaining⟩, running, timer⟩, outstanding⟩
    exact ⟨⟨nonempty, above, below, top, remaining, running⟩, outstanding, timer⟩
  · rintro ⟨⟨nonempty, above, below, top, remaining, running⟩, outstanding, timer⟩
    exact ⟨⟨⟨nonempty, above, below, top, remaining⟩, running, timer⟩, outstanding⟩

theorem Sweep.InPass.moveOn {c : Sweep} (h : c.InPass) (left : 1 ≤ c.remaining) : c.moveOn.InPass := by
  obtain ⟨nonempty, above, below, top, remaining⟩ := h
  constructor <;> simp only [Sweep.moveOn] <;> omega

/-- A position at the first item of a pass. -/
theorem Sweep.InPass.of_first {c : Sweep} (nonempty : 1 ≤ c.count) (top : c.first + c.count ≤ 256)
    (cursor : c.cursor = c.first) (remaining : c.remaining = c.count) : c.InPass := by
  constructor <;> omega

/-- Any state but WAITING agrees with a stopped timer. -/
theorem Sweep.settled_of_stopped {c : Sweep} (inPass : c.InPass) (running : c.state = .running → 1 ≤ c.remaining)
    (timer : c.periodTimer = none) (state : c.state ≠ .waiting) : c.Settled :=
  ⟨inPass, running, iff_of_false (not_not.mpr timer) state⟩

/-- An entry into HALTED keeps the position (R144). -/
theorem Sweep.InPass.halt {c : Sweep} (h : c.InPass) (timer : c.periodTimer = none) (reason : EndReason)
    (station : Station) : (c.halt reason station).Settled := by
  rw [Sweep.halt, Sweep.fillNotice_eq]
  exact Sweep.settled_of_stopped { h with } (nomatch ·) timer (nomatch ·)

/-- The rest of an advance after a complete pass: a new pass, the wait for the period, or IDLE (R143). -/
theorem Sweep.InPass.afterPass {c : Sweep} (h : c.InPass) (running : c.state = .running) (timer : c.periodTimer = none) :
    c.fillNotice.afterPass.Settled := by
  rw [Sweep.afterPass_fillNotice, Sweep.fillNotice_eq]
  split
  · exact Sweep.settled_of_stopped (.of_first h.nonempty h.top rfl rfl) (fun _ => h.nonempty) timer (by simp [running])
  · split
    · exact ⟨{ h with }, (nomatch ·), by simp⟩
    · exact Sweep.settled_of_stopped { h with } (nomatch ·) timer (nomatch ·)

/-- A RUNNING sweep whose period timer is stopped, as it stands when a report arrives. -/
structure Sweep.UnderWay (c : Sweep) : Prop where
  inPass : c.InPass
  left : 1 ≤ c.remaining
  running : c.state = .running
  timer : c.periodTimer = none

theorem Sweep.UnderWay.settled {c : Sweep} (h : c.UnderWay) : c.Settled :=
  Sweep.settled_of_stopped h.inPass (fun _ => h.left) h.timer (by simp [h.running])

theorem Sweep.UnderWay.advance {c : Sweep} (h : c.UnderWay) (station : Station) : (c.advance station).Settled := by
  have moved := h.inPass.moveOn h.left
  rw [Sweep.advance_eq h.left]
  split
  · exact Sweep.InPass.afterPass { moved with } h.running h.timer
  · exact Sweep.settled_of_stopped moved (fun _ => by have := h.left; simp only [Sweep.moveOn]; omega) h.timer
      (by simp [Sweep.moveOn, h.running])

theorem Sweep.UnderWay.found {c : Sweep} (h : c.UnderWay) (station : Station) : (c.found station).Settled := by
  have moved := h.inPass.moveOn h.left
  unfold Sweep.found
  split
  · exact Sweep.InPass.halt (c := c.moveOn.countPass station) { moved with } h.timer _ _
  · exact moved.halt h.timer _ _

/-- An outcome that is applied leaves position and timer in agreement with the state it gives (R138 to R143). -/
theorem Sweep.UnderWay.applyOutcome {c : Sweep} (h : c.UnderWay) (silent verdict : Bool) (station : Station) :
    (c.applyOutcome silent verdict station).Settled := by
  have counted : (c.countSilence silent).UnderWay := ⟨{ h.inPass with }, h.left, h.running, h.timer⟩
  have reset : ({ c.countSilence silent with retryTally := 0 } : Sweep).UnderWay :=
    ⟨{ h.inPass with }, h.left, h.running, h.timer⟩
  have retried : ({ c.countSilence silent with retryTally := c.retryTally + 1 } : Sweep).UnderWay :=
    ⟨{ h.inPass with }, h.left, h.running, h.timer⟩
  unfold Sweep.applyOutcome
  dsimp only
  split
  · exact counted.inPass.halt counted.timer _ _
  · split
    · exact counted.inPass.halt counted.timer _ _
    · unfold Sweep.applyMode
      split
      · exact counted.advance station
      · split
        · exact counted.advance station
        · exact counted.inPass.halt counted.timer _ _
      · split
        · exact counted.found station
        · exact counted.advance station
      · split
        · exact reset.advance station
        · unfold Sweep.retryOnce
          split
          · exact retried.inPass.halt retried.timer _ _
          · exact retried.settled

/-- Only a RUNNING sweep has an item outstanding (R136). -/
theorem Sweep.Consistent.outstanding_eq_none {c : Sweep} (h : c.Consistent) (stopped : c.state ≠ .running) :
    c.outstanding = none := by
  simpa using mt h.outstanding stopped

/-- Only a WAITING sweep has its period timer running (R146). -/
theorem Sweep.Consistent.timer_eq_none {c : Sweep} (h : c.Consistent) (state : c.state ≠ .waiting) :
    c.periodTimer = none := by
  simpa using mt h.settled.timer.mp state

theorem Sweep.Consistent.underWay {c : Sweep} (h : c.Consistent) (running : c.state = .running) : c.UnderWay :=
  ⟨h.settled.inPass, h.settled.running running, running, h.timer_eq_none (by simp [running])⟩

/-- With no item outstanding, position and timer are all that counts. -/
theorem Sweep.Settled.consistent {c : Sweep} (h : c.Settled) (outstanding : c.outstanding = none) : c.Consistent :=
  ⟨h, fun item => absurd outstanding item⟩

/-- A context that differs in neither position, state, item nor timer is consistent too. -/
theorem Sweep.Consistent.congr {c c' : Sweep} (h : c.Consistent) (first : c'.first = c.first := by exact rfl)
    (count : c'.count = c.count := by exact rfl) (cursor : c'.cursor = c.cursor := by exact rfl)
    (remaining : c'.remaining = c.remaining := by exact rfl) (state : c'.state = c.state := by exact rfl)
    (outstanding : c'.outstanding = none ↔ c.outstanding = none := by exact Iff.rfl)
    (timer : c'.periodTimer = none ↔ c.periodTimer = none := by exact Iff.rfl) : c'.Consistent := by
  obtain ⟨⟨⟨nonempty, above, below, top, left⟩, running, waiting⟩, item⟩ := h
  constructor
  · constructor
    · constructor <;> simp only [first, count, cursor, remaining] <;> assumption
    · rwa [state, remaining]
    · rwa [Ne, timer, state]
  · rwa [Ne, outstanding, state]

theorem Sweep.Consistent.report {c : Sweep} (h : c.Consistent) (running : c.state = .running) (silent verdict : Bool)
    (station : Station) :
    ({ c.applyOutcome silent verdict station with outstanding := none } : Sweep).Consistent := by
  obtain ⟨inPass, left, timer⟩ := (h.underWay running).applyOutcome silent verdict station
  exact Sweep.Settled.consistent ⟨{ inPass with }, left, timer⟩ rfl

/-- A loaded context stands IDLE at the first item of the pass that its parameters give (R148). -/
theorem Sweep.Consistent.load {c : Sweep} (h : c.Consistent) (stopped : c.state ≠ .running) {x : SweepParams}
    {image : List Byte} (accepted : SweepParams.ofImage image = some x) : (c.load x).Consistent := by
  have inRange : 1 ≤ x.count ∧ x.first + x.count ≤ 256 := by
    simp only [SweepParams.ofImage, Option.bind_eq_bind, Option.bind_eq_some_iff] at accepted
    obtain ⟨_, _, _, _, accepted⟩ := accepted
    split at accepted
    · cases accepted
    · cases accepted
      dsimp only
      omega
  exact Sweep.Settled.consistent
    (Sweep.settled_of_stopped (.of_first inRange.1 inRange.2 rfl rfl) (nomatch ·) rfl (nomatch ·))
    (h.outstanding_eq_none stopped)

/-- A start begins a pass, by command, by trigger or by the period timer (R146, R149, R153). -/
theorem Sweep.Consistent.begin {c c' : Sweep} (h : c.Consistent) (stopped : c.state ≠ .running)
    (first : c'.first = c.first := by exact rfl) (count : c'.count = c.count := by exact rfl)
    (cursor : c'.cursor = c.first := by exact rfl) (remaining : c'.remaining = c.count := by exact rfl)
    (state : c'.state = .running := by exact rfl) (outstanding : c'.outstanding = c.outstanding := by exact rfl)
    (timer : c'.periodTimer = none := by exact rfl) : c'.Consistent := by
  have nonempty := h.settled.inPass.nonempty
  have top := h.settled.inPass.top
  refine Sweep.Settled.consistent (Sweep.settled_of_stopped (.of_first ?_ ?_ ?_ ?_) ?_ timer (by simp [state])) ?_
  · rwa [count]
  · rwa [first, count]
  · rw [cursor, first]
  · rw [remaining, count]
  · rwa [remaining, imp_iff_right state]
  · rw [outstanding, h.outstanding_eq_none stopped]

theorem Sweep.Consistent.trigger {c : Sweep} (h : c.Consistent) : c.trigger.Consistent := by
  unfold Sweep.trigger
  split
  · exact h.congr
  · next stopped => exact h.begin stopped

/-- A resumed pass goes on from its cursor, or begins afresh where nothing of it is left (R150). -/
theorem Sweep.Consistent.resume {c : Sweep} (h : c.Consistent) (halted : c.state = .halted) : c.resume.Consistent := by
  unfold Sweep.resume
  dsimp only
  split
  · exact h.begin (by simp [halted]) (timer := h.timer_eq_none (by simp [halted]))
  · next left =>
    exact Sweep.Settled.consistent
      (Sweep.settled_of_stopped { h.settled.inPass with } (fun _ => Nat.pos_of_ne_zero left)
        (h.timer_eq_none (by simp [halted])) (nomatch ·))
      (h.outstanding_eq_none (by simp [halted]))

theorem Sweep.Consistent.halt {c : Sweep} (h : c.Consistent) (running : c.state = .running)
    (outstanding : c.outstanding = none) (reason : EndReason) (station : Station) :
    (c.halt reason station).Consistent := by
  refine (h.settled.inPass.halt (h.underWay running).timer reason station).consistent ?_
  rw [Sweep.halt, Sweep.fillNotice_eq]
  exact outstanding

theorem Sweep.Consistent.stop {c : Sweep} (h : c.Consistent) : c.stop.Consistent := by
  unfold Sweep.stop
  split
  · exact h
  · exact h
  · next waiting =>
    exact Sweep.Settled.consistent (Sweep.settled_of_stopped { h.settled.inPass with } (nomatch ·) rfl (nomatch ·))
      (h.outstanding_eq_none (by simp [waiting]))
  · next running =>
    split
    · exact h.congr
    · next item => exact h.halt running (by simpa using item) _ _

theorem Sweep.Consistent.restart {c : Sweep} (h : c.Consistent) : c.restart.Consistent :=
  Sweep.Settled.consistent
    (Sweep.settled_of_stopped (.of_first h.settled.inPass.nonempty h.settled.inPass.top rfl rfl) (nomatch ·) rfl
      (nomatch ·)) rfl

theorem Sweep.powerOn_consistent : Sweep.powerOn.Consistent :=
  Sweep.Settled.consistent
    (Sweep.settled_of_stopped (.of_first le_rfl (by decide) rfl rfl) (nomatch ·) rfl (nomatch ·)) rfl

/-! ### The four contexts -/

/-- Every sweep context is consistent. -/
def State.SweepsConsistent (s : State) : Prop := ∀ k, (s.ss.get k).Consistent

theorem State.sweepsConsistent_iff (s : State) : s.SweepsConsistent ↔ s.SweepPositionsOk ∧ s.SweepTimersOk :=
  (forall_congr' fun k => (s.ss.get k).consistent_iff).trans forall_and

theorem State.SweepsConsistent.set {s : State} (h : s.SweepsConsistent) (k : SweepId) {c : Sweep} (hc : c.Consistent)
    (j : SweepId) : ((s.ss.set k c).get j).Consistent := by
  rw [Four.get_set]
  split
  · exact hc
  · exact h j

/-- Of the acts of the trunk side, a report and the admission of a notice alone write a sweep. -/
theorem trunkSide_keeps_sweeps : TrunkSideKeeps State.SweepsConsistent where
  classifier s d c h := by cases d <;> exact h
  drain s h := by
    rw [State.SweepsConsistent, State.checkDrain_ss]
    exact h
  place _ _ _ h := h
  count _ _ h := h
  field _ _ _ h := h
  trunk _ _ _ h := h
  report s k silent verdict h := by
    unfold State.report
    dsimp only
    split
    · next running _ =>
      rw [State.SweepsConsistent, State.checkDrain_ss]
      exact h.set k ((h k).report running silent verdict _)
    · exact h
  management _ _ h := h
  bracketNotice _ h := h
  attentionNotice _ h := h
  sweepNotice s k h := h.set k (h k).congr
  line _ _ h := h
  noted _ h := h
  start _ _ _ _ _ h := h

theorem State.judge_sweepsConsistent {s : State} (h : s.SweepsConsistent) (d : Direction) (set : SetId) (t : Telegram) :
    (s.judge d set t).2.SweepsConsistent :=
  State.judge_cases (Q := State.SweepsConsistent) h h fun _ _ _ => h

theorem State.Executes.sweepsConsistent {s t : State} (effect : s.Executes t) (h : s.SweepsConsistent) :
    t.SweepsConsistent := by
  cases effect with
  | configured image c =>
    rw [State.configure_eq]
    exact h
  | sweepLoaded k image x stopped accepted => exact h.set k ((h k).load stopped accepted)
  | sweepStarted k stopped => exact h.set k ((h k).begin stopped)
  | sweepResumed k halted => exact h.set k ((h k).resume halted)
  | sweepStopped k => exact h.set k (h k).stop
  | mailboxTaken e others => exact trunkSide_keeps_sweeps.giveMailboxSlot (s := s.dropOldest others) h
  | _ => exact h

theorem State.Act.sweepsConsistent {s t : State} (act : s.Act t) (h : s.SweepsConsistent) : t.SweepsConsistent := by
  have keeps := trunkSide_keeps_sweeps
  cases act with
  | poweredOn straps level =>
    intro k
    refine Eq.subst (motive := Sweep.Consistent) ?_ Sweep.powerOn_consistent
    exact (Four.get_const _ k).symm
  | onFieldLine t act =>
    rw [State.SweepsConsistent, act.frame.1]
    exact h
  | trunkTelegramsEnded f ended =>
    exact keeps.serviceTrunk (foldl_sortTrunk_keeps keeps.count (fun _ _ _ h => h) (fun _ _ _ h => h) ended h)
  | pauseReleased | trunkTelegramSent | bracketExpired => exact keeps.serviceTrunk h
  | requestTaken t rest =>
    exact keeps.serviceTrunk (keeps.downstreamUnit t (State.judge_sweepsConsistent (s := s.setTrq rest) h _ _ _))
  | outcomeTaken r rest =>
    have taken : State.SweepsConsistent { s with flc := { s.flc with frq := rest } } := h
    exact keeps.serviceTrunk (keeps.upstreamUnit r taken fun t => State.judge_sweepsConsistent taken _ _ _)
  | copyLost d u => exact keeps.serviceTrunk (keeps.resume _ _ _ (keeps.count _ _ h))
  | granted side la _ decided =>
    refine keeps.serviceTrunk (State.grant_cases (Q := State.SweepsConsistent) (State.decideGrant_eq_some decided).1
      (fun e rest _ _ => ?_) (fun k i candidate => ?_) fun k candidate => ?_)
    · exact keeps.fillFieldQueue (s := { s with la := la, fsq := rest }) h
    · have running := ((s.sweepCandidate_iff k).mp candidate).1
      exact h.set k ⟨⟨{ (h k).settled.inPass with }, (h k).settled.running, (h k).settled.timer⟩, fun _ => running⟩
    · obtain ⟨running, outstanding, -⟩ := (s.sweepCandidate_iff k).mp candidate
      exact h.set k ((h k).halt running outstanding _ _)
  | periodExpired k waiting => exact h.set k ((h k).begin (by simp [waiting]))
  | attentionTaken =>
    refine keeps.serviceTrunk ?_
    unfold State.triggerBound
    split
    · next k _ => exact h.set k (h k).trigger
    · exact h
  | restarted =>
    refine keeps.serviceTrunk (keeps.drain _ fun k => ?_)
    refine Eq.subst (motive := Sweep.Consistent) ?_ (h k).restart
    exact (Four.get_map _ _ k).symm
  | commanded t rest u e head effect =>
    exact keeps.answer e (effect.sweepsConsistent (s := s.takeCommand rest) h)
  | _ => exact h

theorem State.SweepsConsistent.tick {s : State} (h : s.SweepsConsistent) : s.tick.SweepsConsistent := by
  intro k
  rw [State.tick, Four.get_map]
  exact (h k).congr (timer := Option.map_eq_none_iff)

/-- Settles O57: every act that writes a sweep context writes position, item and timer together with the state. -/
theorem stepKeepsSweepsConsistent : Obligations.StepKeepsSweepsConsistent := fun s t positions timers hstep =>
  t.sweepsConsistent_iff.mp <|
    step_keeps (P := State.SweepsConsistent) (Q := State.SweepsConsistent) (fun _ _ h => h) (fun _ h => h.tick)
      (fun _ _ h act => act.sweepsConsistent h) (s.sweepsConsistent_iff.mpr ⟨positions, timers⟩) hstep

end Sys2Proof.Machine
end

/-! ## What the accumulator bank and the table sets keep -/

section
namespace Sys2Proof.Machine

/-- The bank and the table sets hold by `B` and `R`, and what may be written into them holds by `B` and `R` too: the stages of
a unit under a defined record, the accumulator commands, a TABLE_WRITE, and the power-on contents. -/
structure DataKeeps (B : Sparse Accumulator → Prop) (R : TableSet → Prop) : Prop where
  bankPowerOn : B []
  setPowerOn : R .powerOn
  cleared : ∀ bank first n, B bank → B (bankApply Accumulator.clear first n bank)
  setUp : ∀ bank m first n, B bank → B (bankApply (fun a => { a with mode := m }) first n bank)
  stages : ∀ (T : TableSet) n rec attention payload bank, R T → T.record n = some rec → B bank →
    B (runStages T rec attention payload bank).bank
  written : ∀ T T' : TableSet, T.Written T' → R T → R T'

/-- The bank and both table sets hold by `B` and `R`. -/
def State.DataHolds (B : Sparse Accumulator → Prop) (R : TableSet → Prop) (s : State) : Prop :=
  B s.ab ∧ ∀ i, R (s.ts.table i)

theorem TableStore.table_withTable (ts : TableStore) (i j : SetId) (T : TableSet) :
    (ts.withTable i T).table j = if j = i then T else ts.table j := by
  cases i <;> cases j <;> rfl

section
variable {B : Sparse Accumulator → Prop} {R : TableSet → Prop} {s t : State}

theorem State.DataHolds.congr (h : s.DataHolds B R) (ab : t.ab = s.ab := by exact rfl)
    (set0 : t.ts.set0 = s.ts.set0 := by exact rfl) (set1 : t.ts.set1 = s.ts.set1 := by exact rfl) : t.DataHolds B R := by
  obtain ⟨bank, sets⟩ := h
  refine ⟨by rwa [ab], fun i => ?_⟩
  cases i with
  | zero =>
    change R t.ts.set0
    rw [set0]
    exact sets .zero
  | one =>
    change R t.ts.set1
    rw [set1]
    exact sets .one

/-- A set replaced whole: the other is as it was. -/
theorem State.DataHolds.withTable (h : s.DataHolds B R) (i : SetId) {T : TableSet} (hT : R T) (ab : t.ab = s.ab)
    (ts : ∀ j, t.ts.table j = (s.ts.withTable i T).table j) : t.DataHolds B R := by
  refine ⟨ab ▸ h.1, fun j => ?_⟩
  rw [ts j, TableStore.table_withTable]
  split
  · exact hT
  · exact h.2 j

theorem trunkSide_keeps_data : TrunkSideKeeps (State.DataHolds B R) :=
  .of_frame fun s t frame h => by
    rw [State.TrunkFrame] at frame
    rw [frame]
    exact h.congr

variable (keeps : DataKeeps B R)
include keeps

theorem DataKeeps.judge (h : s.DataHolds B R) (d : Direction) (set : SetId) (t : Telegram) :
    (s.judge d set t).2.DataHolds B R :=
  State.judge_cases h h.congr fun n rec defined => ⟨keeps.stages _ n rec _ _ _ (h.2 set) defined h.1, h.2⟩

theorem DataKeeps.executes (effect : s.Executes t) (h : s.DataHolds B R) : t.DataHolds B R := by
  cases effect with
  | configured image c =>
    rw [State.configure_eq]
    exact h.congr
  | tableWritten T _ written => exact h.withTable s.ts.edit (keeps.written _ _ written (h.2 _)) rfl fun _ => rfl
  | accumulatorsCleared first n => exact ⟨keeps.cleared _ first n h.1, h.2⟩
  | accumulatorsSetUp m first n => exact ⟨keeps.setUp _ m first n h.1, h.2⟩
  | mailboxTaken e others => exact trunkSide_keeps_data.giveMailboxSlot h.congr
  | _ => exact h.congr

theorem DataKeeps.act (act : s.Act t) (h : s.DataHolds B R) : t.DataHolds B R := by
  have trunk := trunkSide_keeps_data (B := B) (R := R)
  cases act with
  | poweredOn => exact ⟨keeps.bankPowerOn, fun i => by cases i <;> exact keeps.setPowerOn⟩
  | onFieldLine t act =>
    rw [act.frame.1]
    exact h.congr
  | trunkTelegramsEnded f ended =>
    exact trunk.serviceTrunk
      (foldl_sortTrunk_keeps trunk.count (fun _ _ _ h => h.congr) (fun _ _ _ h => h.congr) ended h.congr)
  | pauseReleased | trunkTelegramSent | bracketExpired => exact trunk.serviceTrunk h.congr
  | requestTaken t rest =>
    have taken : (s.setTrq rest).DataHolds B R := h.congr
    exact trunk.serviceTrunk (trunk.downstreamUnit t (keeps.judge taken _ _ _))
  | outcomeTaken r rest =>
    have taken : State.DataHolds B R { s with flc := { s.flc with frq := rest } } := h.congr
    exact trunk.serviceTrunk (trunk.upstreamUnit r taken fun t => keeps.judge taken _ _ _)
  | copyLost d u => exact trunk.serviceTrunk (trunk.resume _ _ _ (trunk.count _ _ h))
  | granted side la _ decided =>
    refine trunk.serviceTrunk (State.grant_cases (Q := State.DataHolds B R) (State.decideGrant_eq_some decided).1
      (fun e rest _ _ => ?_) (fun _ _ _ => h.congr) fun _ _ => h.congr)
    exact (trunk.fillFieldQueue (s := { s with la := la, fsq := rest }) h.congr).congr
  | copyEnded => exact h.withTable s.ts.edit (h.2 s.ts.live) rfl fun j => by cases j <;> rfl
  | attentionTaken =>
    refine trunk.serviceTrunk ?_
    unfold State.triggerBound
    split
    · exact h.congr
    · exact h.congr
  | restarted => exact trunk.serviceTrunk (trunk.drain _ h.congr)
  | commanded t rest u e head effect =>
    have taken : (s.takeCommand rest).DataHolds B R := h.congr
    exact trunk.answer e (keeps.executes effect taken)
  | _ => exact h.congr

theorem DataKeeps.step (h : s.DataHolds B R) (hstep : Machine.step s = .next t) : t.DataHolds B R :=
  step_keeps (P := State.DataHolds B R) (fun _ _ h => h.congr) (fun _ h => h.congr) (fun _ _ h act => keeps.act act h) h
    hstep

end

end Sys2Proof.Machine
end

/-! ## The stages of a unit, by the writes they make to the bank -/

section
namespace Sys2Proof.Machine

/-- The decimal reader gives no number over nine digits (R45). -/
theorem readDecimal_bounds {d : Nat} {field : List Byte} {v : Int} (h : readDecimal d field = some v) :
    -999999999 ≤ v ∧ v ≤ 999999999 := by
  unfold readDecimal at h
  dsimp only at h
  split at h
  · next ok =>
    have bound := of_decide_eq_true (Bool.and_eq_true .. ▸ ok).2
    cases h
    split <;> omega
  · cases h

theorem readField_bounds {d n : Nat} {fields : List (List Byte)} {v : Int} (h : readField d fields n = some v) :
    -999999999 ≤ v ∧ v ≤ 999999999 := by
  unfold readField at h
  split at h
  · cases h
  · cases h
  · exact readDecimal_bounds h

section
variable {B : Sparse Accumulator → Prop} {rec : ActionRecord}

/-- Each accumulation of the record keeps `B`, whatever field it reads. -/
def AddsKeep (B : Sparse Accumulator → Prop) (rec : ActionRecord) : Prop :=
  ∀ a, rec.accumulate = some a → ∀ bank n value, -999999999 ≤ value → value ≤ 999999999 → B bank →
    B (bankPut bank n ((bankGet bank n).accumulate (value + rec.adjust.getD 0) a.weight a.scale))

theorem repetition_keeps (hAdd : AddsKeep B rec) (i : Nat) {value : Int} (low : -999999999 ≤ value)
    (high : value ≤ 999999999) (res : StageResults) {bank : Sparse Accumulator} (h : B bank) :
    B (repetition rec i value res bank).2 := by
  unfold repetition
  dsimp only
  split
  · next stage => exact hAdd _ stage _ _ _ low high h
  · exact h

theorem repetitions_keeps (hAdd : AddsKeep B rec) (e : ExtractStage) (fields : List (List Byte)) (n i : Nat)
    (res : StageResults) {bank : Sparse Accumulator} (h : B bank) : B (repetitions rec e fields n i res bank).2 := by
  induction n generalizing i res bank with
  | zero => exact h
  | succ n ih =>
    rw [repetitions]
    split
    · exact h
    · next read =>
      obtain ⟨low, high⟩ := readField_bounds read
      exact ih _ _ (repetition_keeps hAdd i low high res h)

/-- The stages write the bank in the accumulations of the numeric group and in the overflow test, and nowhere else (R35). -/
theorem runStages_keeps (hAdd : AddsKeep B rec)
    (hTest : ∀ bank n, B bank → B (bankPut bank n { bankGet bank n with sticky := false })) (T : TableSet)
    (attention : Bool) (payload : List Byte) {bank : Sparse Accumulator} (h : B bank) :
    B (runStages T rec attention payload bank).bank := by
  have numeric : ∀ payload res, B (runNumeric T rec payload res bank).2 := by
    intro payload res
    unfold runNumeric
    split
    · exact repetitions_keeps hAdd _ _ _ _ _ h
    · exact h
  have verdict : ∀ res bank, B bank → B (runVerdict rec attention res bank).2 := by
    intro res bank h
    unfold runVerdict
    dsimp only
    split
    · dsimp only
      split
      · exact hTest _ _ h
      · exact h
    · exact h
  exact verdict _ _ (numeric _ _)

end

/-! ### The canonical form (log 14) -/

/-- A write of one array keeps the canonical form of all. -/
theorem TableSet.Written.wf {T T' : TableSet} (h : T.Written T') (hT : T.wf = true) : T'.wf = true := by
  obtain ⟨entries, records, translate, delimiters, pattern, items⟩ := TableSet.wf_iff.mp hT
  rw [TableSet.wf_iff]
  cases h with
  | window d k w => cases d <;> exact ⟨entries, records, translate, delimiters, pattern, items⟩
  | entries => exact ⟨Sparse.wf_putRun entries, records, translate, delimiters, pattern, items⟩
  | record => exact ⟨entries, Sparse.wf_put records, translate, delimiters, pattern, items⟩
  | translate => exact ⟨entries, records, Sparse.wf_putRun translate, delimiters, pattern, items⟩
  | delimiters => exact ⟨entries, records, translate, Sparse.wf_putRun delimiters, pattern, items⟩
  | pattern => exact ⟨entries, records, translate, delimiters, Sparse.wf_putRun pattern, items⟩
  | item => exact ⟨entries, records, translate, delimiters, pattern, Sparse.wf_put items⟩

/-- The bank in its canonical form. -/
def BankCanonical (bank : Sparse Accumulator) : Prop := Sparse.wf accumulatorDefault bank = true

theorem dataKeeps_canonical : DataKeeps BankCanonical fun T => T.wf = true where
  bankPowerOn := reset_wf.2
  setPowerOn := reset_wf.1
  cleared _ _ _ h := wf_bankApply h _ _ _
  setUp _ _ _ _ h := wf_bankApply h _ _ _
  stages T _ _ attention payload _ _ _ h :=
    runStages_keeps (B := BankCanonical) (fun _ _ _ _ _ _ _ h => wf_bankPut h _ _) (fun _ _ h => wf_bankPut h _ _) T attention payload h
  written _ _ write h := write.wf h

theorem State.tablesCanonical_iff (s : State) :
    s.TablesCanonical ↔ s.DataHolds BankCanonical fun T => T.wf = true :=
  ⟨fun h => ⟨h.bank, h.table⟩, fun ⟨bank, sets⟩ => ⟨sets .zero, sets .one, bank⟩⟩

/-! ### The ranges (R34, R54, R58) -/

/-- The bank in its canonical form, with every accumulator in range. -/
def BankSound (bank : Sparse Accumulator) : Prop := BankCanonical bank ∧ ∀ n, (bankGet bank n).inRange

theorem Accumulator.powerOn_inRange (mode : AccMode) : ({ Accumulator.powerOn with mode := mode } : Accumulator).inRange := by
  simp [Accumulator.inRange, Accumulator.powerOn]

theorem BankSound.put {bank : Sparse Accumulator} (h : BankSound bank) (n : Nat) {a : Accumulator} (ha : a.inRange) :
    BankSound (bankPut bank n a) := by
  refine ⟨wf_bankPut h.1 n a, fun m => ?_⟩
  rw [bankGet_bankPut h.1]
  split
  · exact ha
  · exact h.2 m

theorem BankSound.apply {bank : Sparse Accumulator} (h : BankSound bank) {f : Accumulator → Accumulator}
    (hf : ∀ a : Accumulator, a.inRange → (f a).inRange) (first n : Nat) : BankSound (bankApply f first n bank) := by
  refine ⟨wf_bankApply h.1 f first n, fun m => ?_⟩
  rw [bankGet_bankApply h.1]
  split
  · exact hf _ (h.2 m)
  · exact h.2 m

/-- A record with its numbers in range adds, to an accumulator in range, a total that one clamp or wrap brings back (R59). -/
theorem bankSound_addsKeep {rec : ActionRecord} (h : rec.numbersInRange) : AddsKeep BankSound rec := by
  intro a stage bank n value low high sound
  obtain ⟨adjusts, accumulates⟩ := h
  obtain ⟨weightLow, weightHigh, -, scaleHigh⟩ := accumulates a stage
  have adjust : -999999999 ≤ rec.adjust.getD 0 ∧ rec.adjust.getD 0 ≤ 999999999 := by
    cases present : rec.adjust with
    | none => simp
    | some c => exact adjusts c present
  obtain ⟨adjustLow, adjustHigh⟩ := adjust
  obtain ⟨termLow, termHigh⟩ := term_bounds scaleHigh
    (product_bounds (value := value + rec.adjust.getD 0) ⟨by omega, by omega⟩ ⟨weightLow, weightHigh⟩)
  have inRange := sound.2 n
  obtain ⟨sumLow, sumHigh, -⟩ := id inRange
  exact sound.put n (Accumulator.accumulate_inRange inRange (by omega) (by omega))

theorem eq_some_of_readStage {α : Type} {present : Bool} {image : List Byte} {start n : Nat} {read : Option α} {v : α}
    (h : readStage present image start n read = some (some v)) : read = some v := by
  unfold readStage at h
  split at h
  · simpa using h
  · split at h
    · cases h
    · cases h

/-- An accepted image spells a record whose numbers are in range (R54). -/
theorem numbersInRange_of_recordOfImage {image : List Byte} (whole : image.length = 35) {r : ActionRecord}
    (h : recordOfImage image = some (some r)) : r.numbersInRange := by
  have read : readRecord image = some r := by
    unfold recordOfImage at h
    split at h
    · split at h
      · split at h
        · next read _ =>
          cases h
          exact read
        · cases h
      · cases h
    · cases h
  simp only [readRecord, Option.bind_eq_bind, Option.bind_eq_some_iff] at read
  obtain ⟨_, -, _, -, _, -, _, -, _, -, _, -, adjust, hadjust, _, -, accumulate, haccumulate, read⟩ := read
  split at read
  · cases read
  · cases read
    constructor
    · rintro c rfl
      have hc := eq_some_of_readStage hadjust
      unfold readAdjust at hc
      dsimp only at hc
      split at hc
      · cases hc
      · cases hc
        omega
    · rintro a rfl
      have ha := eq_some_of_readStage haccumulate
      obtain ⟨refused, given⟩ := readAccumulate_reads whole
      by_cases bad : ReservedBad image ∨ AccumulateBad image
      · rw [refused bad] at ha
        cases ha
      · rw [given bad] at ha
        cases ha
        simp only [AccumulateBad, not_or] at bad
        have top : signed2 image 32 < 2 ^ 15 := BitVec.toInt_lt
        dsimp only
        omega

theorem dataKeeps_sound : DataKeeps BankSound fun T => T.wf = true ∧ T.recordsInRange where
  bankPowerOn := ⟨reset_wf.2, fun _ => Accumulator.powerOn_inRange _⟩
  setPowerOn := ⟨reset_wf.1, fun _ _ defined => nomatch defined⟩
  cleared _ first n h := h.apply (fun a _ => Accumulator.powerOn_inRange a.mode) first n
  setUp _ m first n h := h.apply (f := fun a => { a with mode := m }) (fun _ ha => ha) first n
  stages T n _ attention payload _ hT defined h :=
    runStages_keeps (bankSound_addsKeep (hT.2 n _ defined)) (fun _ n h => h.put n (h.2 n)) T attention payload h
  written T T' write h := by
    refine ⟨write.wf h.1, ?_⟩
    cases write with
    | window d k w => cases d <;> exact h.2
    | record n r image whole accepted =>
      intro m rec defined
      obtain ⟨-, records, -⟩ := TableSet.wf_iff.mp h.1
      rw [TableSet.record, Sparse.get_put records] at defined
      split at defined
      · subst defined
        exact numbersInRange_of_recordOfImage whole accepted
      · exact h.2 m rec defined
    | _ => exact h.2

theorem State.dataSound_iff (s : State) :
    s.DataHolds BankSound (fun T => T.wf = true ∧ T.recordsInRange) ↔ s.TablesCanonical ∧ s.AccumulatorsInRange :=
  ⟨fun ⟨⟨canonical, bank⟩, sets⟩ =>
    ⟨⟨(sets .zero).1, (sets .one).1, canonical⟩, ⟨bank, (sets .zero).2, (sets .one).2⟩⟩,
  fun ⟨canonical, ranges⟩ => ⟨⟨canonical.bank, ranges.bank⟩, fun i => ⟨canonical.table i, by
    cases i with
    | zero => exact ranges.set0
    | one => exact ranges.set1⟩⟩⟩

/-- Settles O56: an accepted record has its numbers in range, and a record with its numbers in range keeps the accumulators in
range. -/
theorem stepKeepsAccumulatorsInRange : Obligations.StepKeepsAccumulatorsInRange := fun s t canonical ranges hstep =>
  (t.dataSound_iff.mp (dataKeeps_sound.step (s.dataSound_iff.mpr ⟨canonical, ranges⟩) hstep)).2

end Sys2Proof.Machine
end

/-! ## Counts, configuration, tenure, attention, mailbox numbers and the hold output -/

section
namespace Sys2Proof.Machine

/-! ### One piece of the part at a time -/

/-- A count moves its own counter, by one and up to its top, and no other (R172). -/
theorem Counters.get_bump (c : Counters) (k j : Counter) :
    (c.bump k).get j = if j = k then min (c.get j + 1) 65535 else c.get j := by
  cases k <;> cases j <;> rfl

theorem Counters.bounded.bump {c : Counters} (h : c.bounded) (k : Counter) : (c.bump k).bounded := by
  intro j
  rw [Counters.get_bump]
  split
  · exact Nat.min_le_right _ _
  · exact h j

theorem Counters.bounded.countedTo {c c' : Counters} (h : c.bounded) (counted : c.CountedTo c') : c'.bounded := by
  obtain ⟨ks, rfl⟩ := counted
  induction ks generalizing c with
  | nil => exact h
  | cons k ks ih => exact ih (h.bump k)

theorem Counters.zero_bounded : Counters.zero.bounded := fun k => by
  cases k <;> exact Nat.zero_le _

/-- An accepted record has every field in its range (R174). -/
theorem ConfigRecord.inRange_of_ofImage {image : List Byte} (whole : image.length = 11) {c : ConfigRecord}
    (h : ConfigRecord.ofImage image = some c) : c.InRange := by
  have byte : ∀ k, k < 11 → fieldNat image k 1 ≤ 255 := fun k small => by
    rw [fieldNat_one (by omega)]
    exact Nat.le_of_lt_succ (BitVec.isLt _)
  have gap := byte 2 (by decide)
  have window := byte 3 (by decide)
  have settle := byte 4 (by decide)
  simp only [ConfigRecord.ofImage, Option.bind_eq_bind, Option.bind_eq_some_iff] at h
  obtain ⟨_, -, _, -, _, -, h⟩ := h
  split at h
  · cases h
  · cases h
    constructor <;> dsimp only <;> omega

theorem ConfigRecord.powerOn_inRange : ConfigRecord.powerOn.InRange := by
  constructor <;> decide

/-- The level that a comparison gives follows the occupancies, whatever the level was (R11). -/
theorem holdLevel_follows (trq mcq : Nat) (old : Bool) :
    (7 ≤ trq ∨ 3 ≤ mcq → holdLevel trq mcq old = true) ∧ (trq ≤ 5 → mcq ≤ 2 → holdLevel trq mcq old = false) := by
  unfold holdLevel
  refine ⟨fun high => if_pos high, fun low low' => ?_⟩
  rw [if_neg (by omega), if_pos ⟨low, low'⟩]

/-- A copy placed takes the next number, and the entries before it stand one further from the number after it (R82). -/
theorem Mailbox.numbered.place {m : Mailbox} (h : m.numbered) (c : MailboxCopy) : (m.place c).numbered := by
  intro i e he
  simp only [Mailbox.place, List.length_append, List.length_singleton] at he ⊢
  rcases Nat.lt_trichotomy i m.entries.length with before | here | past
  · rw [List.getElem?_append_left before] at he
    rw [h i e he, Nat.sub_add_comm before.le, BitVec.ofNat_add]
    exact (add_sub_add_right_eq_sub ..).symm
  · subst here
    simp only [List.getElem?_concat_length, Option.some.injEq] at he
    subst he
    simp
  · rw [List.getElem?_eq_none (by simpa using past)] at he
    cases he

/-- The oldest entry leaves the others with their numbers (R86). -/
theorem Mailbox.numbered.dropOldest {m : Mailbox} (h : m.numbered) {e : MailboxEntry} {others : List MailboxEntry}
    (oldest : m.entries = e :: others) : Mailbox.numbered ⟨others, m.next⟩ := by
  intro i x hx
  have number := h (i + 1) x (by rw [oldest]; simpa using hx)
  rw [number, oldest, List.length_cons, Nat.add_sub_add_right]

theorem Mailbox.powerOn_numbered : Mailbox.powerOn.numbered := fun i e h => by
  simp [Mailbox.powerOn] at h

/-! ### The whole -/

/-- The configuration is in its ranges, the tenure counter within its limit, and the hold output follows TRQ and MCQ: what the
trunk side leaves alone. -/
def State.SettingsHold (s : State) : Prop :=
  s.config.InRange ∧ (1 ≤ s.la.counter ∧ s.la.counter ≤ s.config.tenureLimit ∧ s.config.tenureLimit ≤ 64)
    ∧ (7 ≤ s.tp.trq.length ∨ 3 ≤ s.tp.mcq.length → s.tp.hold = true)
    ∧ (s.tp.trq.length ≤ 5 → s.tp.mcq.length ≤ 2 → s.tp.hold = false)

/-- The counters are within 16 bits, the assertion count agrees with its slot, and the mailbox is numbered: what the trunk
side moves. -/
def State.NumbersHold (s : State) : Prop :=
  s.counters.bounded ∧ ((0 < s.am.count ↔ s.am.pending = true) ∧ s.am.count ≤ 255) ∧ s.mb.numbered

theorem trunkSide_keeps_settings : TrunkSideKeeps State.SettingsHold :=
  .of_frame fun s t frame h => by
    rw [State.TrunkFrame] at frame
    rw [frame]
    exact h

theorem trunkSide_keeps_numbers : TrunkSideKeeps State.NumbersHold where
  classifier s d c h := by cases d <;> exact h
  drain s h := by
    rw [State.NumbersHold, State.checkDrain_counters, State.checkDrain_am, State.checkDrain_mb]
    exact h
  place s c _ h := by
    obtain ⟨counters, attention, numbered⟩ := h
    exact ⟨counters, attention, numbered.place c⟩
  count s k h := by
    obtain ⟨counters, attention, numbered⟩ := h
    exact ⟨counters.bump k, attention, numbered⟩
  field _ _ _ h := h
  trunk _ _ _ h := h
  report s k silent verdict h := by
    unfold State.report
    dsimp only
    split
    · rw [State.NumbersHold, State.checkDrain_counters, State.checkDrain_am, State.checkDrain_mb]
      exact h
    · exact h
  management _ _ h := h
  bracketNotice _ h := h
  attentionNotice s h := by
    obtain ⟨counters, -, numbered⟩ := h
    exact ⟨counters, ⟨by simp, Nat.zero_le _⟩, numbered⟩
  sweepNotice _ _ h := h
  line _ _ h := h
  noted _ h := h
  start _ _ _ _ _ h := h

/-- All of them hold. -/
def State.CountsHold (s : State) : Prop := s.SettingsHold ∧ s.NumbersHold

theorem trunkSide_keeps_counts : TrunkSideKeeps State.CountsHold := trunkSide_keeps_settings.and trunkSide_keeps_numbers

theorem State.countsHold_iff (s : State) :
    s.CountsHold ↔ s.counters.bounded ∧ s.config.InRange ∧ s.TenureBounded ∧ s.AttentionConsistent ∧ s.mb.numbered
      ∧ s.HoldFollows := by
  constructor
  · rintro ⟨⟨config, ⟨low, high, limit⟩, asserted, released⟩, counters, ⟨pending, bounded⟩, numbered⟩
    exact ⟨counters, config, ⟨low, high, limit⟩, ⟨pending, bounded⟩, numbered, asserted, released⟩
  · rintro ⟨counters, config, ⟨low, high, limit⟩, ⟨pending, bounded⟩, numbered, asserted, released⟩
    exact ⟨⟨config, ⟨low, high, limit⟩, asserted, released⟩, counters, ⟨pending, bounded⟩, numbered⟩

/-- A queue of the trunk that takes new contents is compared for the hold output. -/
theorem State.CountsHold.setTrq {s : State} (h : s.CountsHold) (q : List Telegram) : (s.setTrq q).CountsHold := by
  obtain ⟨⟨config, tenure, -⟩, numbers⟩ := h
  exact ⟨⟨config, tenure, holdLevel_follows _ _ _⟩, numbers⟩

theorem State.CountsHold.setMcq {s : State} (h : s.CountsHold) (q : List Telegram) : (s.setMcq q).CountsHold := by
  obtain ⟨⟨config, tenure, -⟩, numbers⟩ := h
  exact ⟨⟨config, tenure, holdLevel_follows _ _ _⟩, numbers⟩

theorem State.CountsHold.judge {s : State} (h : s.CountsHold) (d : Direction) (set : SetId) (t : Telegram) :
    (s.judge d set t).2.CountsHold :=
  State.judge_cases (Q := State.CountsHold) h (trunkSide_keeps_counts.count s _ h) fun _ _ _ => h

/-- The record that is taken limits the tenure, and the counter is lowered to it (R127). -/
theorem State.CountsHold.configure {s : State} (h : s.CountsHold) {c : ConfigRecord} (hc : c.InRange) :
    (s.configure c).CountsHold := by
  obtain ⟨⟨-, ⟨low, -⟩, hold⟩, numbers⟩ := h
  obtain ⟨limitLow, limitHigh⟩ := hc.tenureLimit
  rw [State.configure_eq]
  refine ⟨⟨hc, ⟨by dsimp only; omega, by dsimp only; omega, limitHigh⟩, ?_⟩, numbers⟩
  dsimp only
  split
  · exact hold
  · exact hold

theorem State.Executes.countsHold {s t : State} (effect : s.Executes t) (h : s.CountsHold) : t.CountsHold := by
  cases effect with
  | countersCleared =>
    obtain ⟨settings, -, attention, numbered⟩ := h
    exact ⟨settings, Counters.zero_bounded, attention, numbered⟩
  | configured image c whole accepted => exact h.configure (ConfigRecord.inRange_of_ofImage whole accepted)
  | mailboxTaken e others oldest =>
    obtain ⟨settings, counters, attention, numbered⟩ := h
    exact trunkSide_keeps_counts.giveMailboxSlot ⟨settings, counters, attention, numbered.dropOldest oldest⟩
  | _ => exact h

/-- A grant keeps the tenure counter between 1 and the limit (R123). -/
theorem State.CountsHold.grant {s : State} (h : s.CountsHold) {side : Side} {la : LineArbiter}
    (decided : s.decideGrant = some (side, la)) : (s.grant side la).CountsHold := by
  obtain ⟨work, -, counter⟩ := State.decideGrant_eq_some decided
  obtain ⟨⟨config, ⟨low, high, limit⟩, hold⟩, numbers⟩ := h
  have granted : State.CountsHold { s with la := la } :=
    ⟨⟨config, ⟨by dsimp only; omega, by dsimp only; omega, limit⟩, hold⟩, numbers⟩
  refine State.grant_cases (Q := State.CountsHold) work (fun e rest _ _ => ?_) (fun _ _ _ => granted) fun _ _ => granted
  exact trunkSide_keeps_counts.fillFieldQueue (s := { s with la := la, fsq := rest }) granted

theorem State.powerOn_countsHold (straps : Station) (level : Level) (pause : Bool) :
    (State.powerOn straps level pause).CountsHold := by
  refine ⟨⟨ConfigRecord.powerOn_inRange, ?_, ?_⟩, Counters.zero_bounded, ?_, Mailbox.powerOn_numbered⟩
  · simp [State.powerOn, LineArbiter.cleared, ConfigRecord.powerOn]
  · simp [State.powerOn, TrunkPort.powerOn]
  · simp [State.powerOn, AttentionMonitor.powerOn]

theorem State.Act.countsHold {s t : State} (act : s.Act t) (h : s.CountsHold) : t.CountsHold := by
  have keeps := trunkSide_keeps_counts
  cases act with
  | poweredOn straps level => exact State.powerOn_countsHold straps level s.tp.pause
  | onFieldLine t act =>
    obtain ⟨frame, counted⟩ := act.frame
    obtain ⟨settings, counters, attention, numbered⟩ := h
    rw [frame]
    exact ⟨settings, counters.countedTo counted, attention, numbered⟩
  | trunkTelegramsEnded f ended =>
    exact keeps.serviceTrunk
      (foldl_sortTrunk_keeps keeps.count (fun _ _ _ h => h.setMcq _) (fun _ _ _ h => h.setTrq _) ended h)
  | pauseReleased | trunkTelegramSent | bracketExpired => exact keeps.serviceTrunk h
  | requestTaken t rest => exact keeps.serviceTrunk (keeps.downstreamUnit t ((h.setTrq rest).judge _ _ _))
  | outcomeTaken r rest =>
    have taken : State.CountsHold { s with flc := { s.flc with frq := rest } } := h
    exact keeps.serviceTrunk (keeps.upstreamUnit r taken fun t => taken.judge _ _ _)
  | copyLost d u => exact keeps.serviceTrunk (keeps.resume _ _ _ (keeps.count _ _ h))
  | granted side la _ decided => exact keeps.serviceTrunk (h.grant decided)
  | attentionTaken =>
    obtain ⟨settings, counters, -, numbered⟩ := h
    have asserted : State.CountsHold
        { s with am := { level := .asserted, count := countUp 255 s.am.count, pending := true } } :=
      ⟨settings, counters, ⟨iff_of_true (by simp [countUp]) rfl, Nat.min_le_right _ _⟩, numbered⟩
    refine keeps.serviceTrunk ?_
    unfold State.triggerBound
    split
    · exact asserted
    · exact asserted
  | restarted =>
    obtain ⟨⟨config, ⟨low, high, limit⟩, -⟩, counters, -⟩ := h
    refine keeps.serviceTrunk (keeps.drain _ ?_)
    exact ⟨⟨config, ⟨low.trans high, le_rfl, limit⟩, holdLevel_follows 0 0 s.tp.hold⟩, counters, ⟨by simp, Nat.zero_le _⟩,
      Mailbox.powerOn_numbered⟩
  | commanded t rest u e head effect =>
    have taken : (s.takeCommand rest).CountsHold := h.setMcq rest
    exact keeps.answer e (effect.countsHold taken)
  | _ => exact h

/-- Settles O59: the tables by what their writes keep, and the counts by the acts that move them. -/
theorem stepKeepsCountsAndTables : Obligations.StepKeepsCountsAndTables := by
  intro s t counters config tenure attention numbered hold canonical hstep
  have counts : t.CountsHold := step_keeps (P := State.CountsHold) (Q := State.CountsHold) (fun _ _ h => h) (fun _ h => h)
    (fun _ _ h act => act.countsHold h)
    (s.countsHold_iff.mpr ⟨counters, config, tenure, attention, numbered, hold⟩) hstep
  have canonical' := t.tablesCanonical_iff.mpr (dataKeeps_canonical.step (s.tablesCanonical_iff.mp canonical) hstep)
  obtain ⟨counters', config', tenure', attention', numbered', hold'⟩ := t.countsHold_iff.mp counts
  exact ⟨counters', config', tenure', attention', numbered', hold', canonical'⟩

end Sys2Proof.Machine
end

/-! ## Nothing is due after a step -/

section
namespace Sys2Proof.Machine

/-! ### Who waits (R14, R15) -/

theorem mem_producerOrder (p : Producer) : p ∈ producerOrder := by
  cases p with
  | ss k => revert k; decide
  | _ => decide

theorem State.firstWaiting_eq_none_iff (s : State) : s.firstWaiting = none ↔ ∀ p, s.waitsWith p = none := by
  simp [State.firstWaiting, List.findSome?_eq_none_iff, mem_producerOrder]

/-! ### The trunk side at the end of an act (R12 to R16) -/

/-- What the trunk side owes is done: no producer waits beside a free slot, no head that may start stands idle, and no line
change is overdue. -/
structure State.TrunkSteady (s : State) : Prop where
  admitted : s.tp.tsq.length < 16 → s.firstWaiting = none
  started : s.tp.sending = none → s.tp.tsq ≠ [] → (s.tp.pause = true ∧ s.tp.headCounted = true) ∨ s.tp.blocked = true
  changed : ∀ c, s.tp.change = some c → c.sent = true → s.tp.framer ≠ .hunt ∨ s.tp.sending ≠ none

/-- A delivery only adds to TSQ. -/
theorem tsq_length_le_deliver (n : Nat) (d : Direction) (u : UnitOfWork) (outputs : List Output) {s : State}
    (h : n ≤ s.tp.tsq.length) : n ≤ (deliver d u outputs s).tp.tsq.length := by
  refine deliver_keeps (P := fun s => n ≤ s.tp.tsq.length) (Q := fun s => n ≤ s.tp.tsq.length) (fun s h => ?_)
    (fun s _ _ h => ?_) (fun _ _ _ h => h) (fun _ h => h) (fun _ _ _ h => h) (fun s e _ h => ?_) (fun s k _ _ h => ?_)
    outputs s h
  · rwa [State.endUnit, State.checkDrain_tp, State.setClassifier_tp]
  · rwa [State.stall, State.setClassifier_tp]
  · rw [State.enterTsq_tp_tsq, List.length_append]
    exact Nat.le_add_right_of_le h
  · unfold State.report
    dsimp only
    split
    · rwa [State.checkDrain_tp]
    · exact h

/-- A slot that is given away is filled, and may be followed by others. -/
theorem tsq_length_lt_giveSlot (s : State) (p : Producer) (e : TsqEntry) :
    s.tp.tsq.length + 1 ≤ (s.giveSlot p e).tp.tsq.length := by
  have entered : s.tp.tsq.length + 1 ≤ (s.enterTsq e).tp.tsq.length := by simp
  have goesOn : ∀ d, s.tp.tsq.length + 1 ≤ ((s.enterTsq e).goOn d).tp.tsq.length := fun d => by
    unfold State.goOn
    split
    · exact tsq_length_le_deliver _ _ _ _ (by rwa [State.setClassifier_tp])
    · exact entered
  cases p with
  | uc => exact goesOn .upstream
  | dc => exact goesOn .downstream
  | _ => exact entered

/-- Admission ends with TSQ full or with nobody waiting: it has slots to give as long as TSQ has free ones (R15). -/
theorem serveUpTo_admits {n : Nat} {s : State} (slots : 16 ≤ n + s.tp.tsq.length)
    (room : (serveUpTo n s).tp.tsq.length < 16) : (serveUpTo n s).firstWaiting = none := by
  induction n generalizing s with
  | zero =>
    rw [serveUpTo] at room
    omega
  | succ n ih =>
    by_cases free : s.tp.tsq.length < 16
    · cases waits : s.firstWaiting with
      | none => rwa [serveUpTo_of_noneWaiting waits]
      | some w =>
        obtain ⟨p, e⟩ := w
        rw [serveUpTo_of_waiting free waits] at room ⊢
        exact ih (by have := tsq_length_lt_giveSlot s p e; omega) room
    · rw [serveUpTo_of_full (by omega)] at room
      exact absurd room free

theorem State.serve_admits (s : State) (room : s.serve.tp.tsq.length < 16) : s.serve.firstWaiting = none :=
  serveUpTo_admits (Nat.le_add_right 16 _) room

/-- A line change taken moves neither TSQ nor who waits, and leaves no change overdue. -/
theorem State.takeTrunkChange_steady (s : State) :
    s.takeTrunkChange.tp.tsq = s.tp.tsq ∧ s.takeTrunkChange.firstWaiting = s.firstWaiting
      ∧ ∀ c, s.takeTrunkChange.tp.change = some c → c.sent = true →
        s.takeTrunkChange.tp.framer ≠ .hunt ∨ s.takeTrunkChange.tp.sending ≠ none := by
  unfold State.takeTrunkChange
  split
  · next c waits =>
    split
    · exact ⟨rfl, State.firstWaiting_congr rfl rfl rfl rfl rfl fun _ => rfl, fun _ h => nomatch h⟩
    · next notDue =>
      refine ⟨rfl, rfl, fun c' h sent => ?_⟩
      obtain rfl : c = c' := by simpa [waits] using h
      by_contra due
      rw [not_or, not_not, not_not] at due
      exact notDue ⟨sent, due⟩
  · next none => exact ⟨rfl, rfl, fun _ h => by simp [none] at h⟩

/-- Whatever the act left due on the trunk side is done at its end. -/
theorem State.serviceTrunk_steady (s : State) : s.serviceTrunk.TrunkSteady := by
  obtain ⟨tsq, waiting, changed⟩ := s.serve.takeTrunkChange_steady
  have admitted : s.serve.takeTrunkChange.tp.tsq.length < 16 → s.serve.takeTrunkChange.firstWaiting = none := by
    rw [tsq, waiting]
    exact s.serve_admits
  unfold State.serviceTrunk State.startHead
  split
  · next e rest idle head =>
    split
    · next blocked => exact ⟨admitted, fun _ _ => .inr blocked, changed⟩
    · split
      · next paused =>
        split
        · next counted => exact ⟨admitted, fun _ _ => .inl ⟨paused, counted⟩, changed⟩
        · refine ⟨fun room => ?_, fun _ _ => .inl ⟨paused, rfl⟩, changed⟩
          exact (State.firstWaiting_congr rfl rfl rfl rfl rfl fun _ => rfl).trans (admitted room)
      · have sending : ∀ v : State, v.tp.sending ≠ none → v.serve.tp.sending ≠ none := fun v h => by
          rwa [v.serve_frame]
        exact ⟨State.serve_admits _, fun idle => absurd idle (sending _ (Option.some_ne_none _)),
          fun _ _ _ => .inr (sending _ (Option.some_ne_none _))⟩
  · next busy =>
    refine ⟨admitted, fun idle some => ?_, changed⟩
    obtain ⟨e, rest, head⟩ := List.exists_cons_of_ne_nil some
    exact absurd head (busy e rest idle)

/-- An act that leaves the Trunk Port alone, and makes no producer wait, leaves nothing due. -/
theorem State.TrunkSteady.congr {s t : State} (h : s.TrunkSteady) (tp : t.tp = s.tp)
    (waiting : ∀ p, s.waitsWith p = none → t.waitsWith p = none) : t.TrunkSteady where
  admitted room := by
    rw [tp] at room
    exact t.firstWaiting_eq_none_iff.mpr fun p => waiting p (s.firstWaiting_eq_none_iff.mp (h.admitted room) p)
  started := by
    rw [tp]
    exact h.started
  changed := by
    rw [tp]
    exact h.changed

/-! ### The field line change (R17) -/

/-- No field line change is overdue. -/
def State.FieldSteady (s : State) : Prop := s.fp.change ≠ none → s.flc.state ≠ .idle ∨ s.fp.framer ≠ .hunt

theorem State.takeFieldChange_steady (s : State) : s.takeFieldChange.FieldSteady := by
  unfold State.takeFieldChange
  split
  · split
    · exact fun waits => absurd rfl waits
    · next busy => exact fun _ => not_and_or.mp busy
  · next none => exact fun waits => absurd none waits

theorem State.enterSettling_steady (s : State) : s.enterSettling.FieldSteady := by
  unfold State.enterSettling
  split
  · exact State.takeFieldChange_steady _
  · exact fun _ => .inl FlcState.noConfusion

theorem State.closeTransaction_steady (s : State) (o : FieldOutcome) : (s.closeTransaction o).FieldSteady := by
  unfold State.closeTransaction
  split
  · split
    · exact State.enterSettling_steady _
    · exact State.enterSettling_steady _
  · exact State.enterSettling_steady _

theorem State.LineAct.steady {s t : State} (act : s.LineAct t) : t.FieldSteady := by
  cases act with
  | requestSent => exact fun _ => .inl FlcState.noConfusion
  | broadcastSent => exact State.enterSettling_steady _
  | replyBegun | telegramBegun => exact fun _ => .inr Framer.noConfusion
  | charactersTaken | gapPassed | settled => exact State.takeFieldChange_steady _
  | noReply => exact State.closeTransaction_steady _ _
  | windowNoted n receiving => exact fun _ => .inl (by simp [receiving])

theorem trunkSide_keeps_fieldSteady : TrunkSideKeeps State.FieldSteady :=
  .of_frame fun s t frame h => by
    rw [State.TrunkFrame] at frame
    rw [frame]
    exact h

/-! ### The holders of the edit set (R90 to R93) -/

theorem State.isHeld_iff (s : State) (i : SetId) :
    s.isHeld i = true ↔ (∃ d, (s.classifier d).held = some i) ∨ ∃ k, (s.ss.get k).held = some i := by
  simp only [State.isHeld, Bool.or_eq_true, beq_iff_eq, List.any_eq_true, Four.mem_toList]
  refine or_congr ⟨?_, ?_⟩ ?_
  · rintro (dc | uc)
    · exact ⟨.downstream, dc⟩
    · exact ⟨.upstream, uc⟩
  · rintro ⟨_ | _, held⟩
    · exact .inl held
    · exact .inr held
  · constructor
    · rintro ⟨_, ⟨k, rfl⟩, held⟩
      exact ⟨k, held⟩
    · rintro ⟨k, held⟩
      exact ⟨_, ⟨k, rfl⟩, held⟩

/-- Consumers that hold no more sets hold set `i` only where it was held. -/
theorem State.isHeld_of_le {s t : State} {i : SetId}
    (classifiers : ∀ d, (t.classifier d).held = some i → (s.classifier d).held = some i)
    (sweeps : ∀ k, (t.ss.get k).held = some i → (s.ss.get k).held = some i) (h : t.isHeld i = true) :
    s.isHeld i = true :=
  (s.isHeld_iff i).mpr (((t.isHeld_iff i).mp h).imp (Exists.imp classifiers) (Exists.imp sweeps))

theorem State.isHeld_congr {s t : State} {i : SetId}
    (classifiers : ∀ d, (t.classifier d).held = some i ↔ (s.classifier d).held = some i)
    (sweeps : ∀ k, (t.ss.get k).held = some i ↔ (s.ss.get k).held = some i) : t.isHeld i = s.isHeld i :=
  Bool.eq_iff_iff.mpr ⟨State.isHeld_of_le (fun d => (classifiers d).mp) fun k => (sweeps k).mp,
    State.isHeld_of_le (fun d => (classifiers d).mpr) fun k => (sweeps k).mpr⟩

theorem State.isHeld_setSweep {s : State} {i : SetId} (k : SweepId) {c : Sweep}
    (h : c.held = some i ↔ (s.ss.get k).held = some i) : (s.setSweep k c).isHeld i = s.isHeld i := by
  refine State.isHeld_congr (fun d => by cases d <;> rfl) fun j => ?_
  rw [State.setSweep_ss, Four.get_set]
  split
  · next same => rw [h, same]
  · rfl

theorem State.classifier_setClassifier_ne (s : State) {d d' : Direction} (c : Classifier) (h : d' ≠ d) :
    (s.setClassifier d c).classifier d' = s.classifier d' :=
  match d, d', h with
  | .downstream, .upstream, _ => rfl
  | .upstream, .downstream, _ => rfl
  | .downstream, .downstream, h => absurd rfl h
  | .upstream, .upstream, h => absurd rfl h

theorem State.isHeld_setClassifier {s : State} {i : SetId} (d : Direction) {c : Classifier}
    (h : c.held = some i ↔ (s.classifier d).held = some i) : (s.setClassifier d c).isHeld i = s.isHeld i := by
  refine State.isHeld_congr (fun d' => ?_) fun k => by rw [State.setClassifier_ss]
  by_cases same : d' = d
  · rw [same, State.classifier_setClassifier, h]
  · rw [State.classifier_setClassifier_ne s c same]

/-- The Table Store drains exactly while a consumer holds the edit set (R91, R93). -/
def State.DrainExact (s : State) : Prop := s.ts.state = .draining ↔ s.isHeld s.ts.edit = true

theorem State.DrainExact.congr {s t : State} (h : s.DrainExact) (state : t.ts.state = s.ts.state := by exact rfl)
    (edit : t.ts.edit = s.ts.edit := by exact rfl) (held : t.isHeld s.ts.edit = s.isHeld s.ts.edit := by exact rfl) :
    t.DrainExact := by
  rw [State.DrainExact, state, edit, held]
  exact h

/-- A release is noticed at once: where the set may have lost its last holder, the check makes the two agree (R93). -/
theorem State.checkDrain_exact {s : State} (h : s.isHeld s.ts.edit = true → s.ts.state = .draining) :
    s.checkDrain.DrainExact := by
  unfold State.checkDrain
  split
  · next released =>
    refine iff_of_false StoreState.noConfusion fun held => Bool.false_ne_true (released.2.symm.trans ?_)
    exact State.isHeld_of_le (fun d => by cases d <;> exact id) (fun _ => id) held
  · next kept => exact ⟨fun draining => by simpa [draining] using kept, h⟩

/-! ### Between the acts of a unit (log 5) -/

/-- The Table Store agrees with the holders, and no classifier is WORKING. -/
def State.Resting (s : State) : Prop := s.DrainExact ∧ ∀ d u, s.classifier d ≠ .working u

/-- The classifier of direction `d` delivers the outputs of its unit `u`, and the other is not WORKING. -/
structure State.Delivers (d : Direction) (u : UnitOfWork) (s : State) : Prop where
  exact : s.DrainExact
  working : s.classifier d = .working u
  other : ∀ d' u', d' ≠ d → s.classifier d' ≠ .working u'

theorem State.Resting.congr {s t : State} (h : s.Resting) (state : t.ts.state = s.ts.state := by exact rfl)
    (edit : t.ts.edit = s.ts.edit := by exact rfl) (ss : t.ss = s.ss := by exact rfl) (dc : t.dc = s.dc := by exact rfl)
    (uc : t.uc = s.uc := by exact rfl) : t.Resting := by
  have same : ∀ d, t.classifier d = s.classifier d := fun d => by cases d <;> assumption
  refine ⟨h.1.congr state edit (State.isHeld_congr (fun d => by rw [same]) fun k => by rw [ss]), fun d u => ?_⟩
  rw [same]
  exact h.2 d u

theorem State.Resting.setSweep {s : State} (h : s.Resting) (k : SweepId) {c : Sweep}
    (held : c.held = some s.ts.edit ↔ (s.ss.get k).held = some s.ts.edit) : (s.setSweep k c).Resting :=
  ⟨h.1.congr (held := State.isHeld_setSweep k held), fun d => by
    cases d
    · exact h.2 .downstream
    · exact h.2 .upstream⟩

/-- A report releases the set of the sweep's item, and the drain is checked in the same act (R93, R138). -/
theorem State.report_exact {s : State} (h : s.DrainExact) (k : SweepId) (silent verdict : Bool) :
    (s.report k silent verdict).DrainExact := by
  unfold State.report
  dsimp only
  split
  · refine State.checkDrain_exact fun held => h.mpr (State.isHeld_of_le (fun d => ?_) (fun j => ?_) held)
    · cases d <;> exact id
    · rw [Four.get_set]
      split
      · exact fun none => nomatch none
      · exact id
  · exact h

theorem State.report_classifier (s : State) (k : SweepId) (silent verdict : Bool) (d : Direction) :
    (s.report k silent verdict).classifier d = s.classifier d := by
  unfold State.report
  dsimp only
  split
  · cases d
    · exact State.checkDrain_dc _
    · exact State.checkDrain_uc _
  · rfl

theorem State.checkDrain_classifier (s : State) (d : Direction) : s.checkDrain.classifier d = s.classifier d := by
  cases d
  · exact s.checkDrain_dc
  · exact s.checkDrain_uc

/-- An act that leaves the Table Store, the sweeps and the classifiers alone leaves the unit delivering. -/
theorem State.Delivers.congr {d : Direction} {u : UnitOfWork} {s t : State} (h : s.Delivers d u)
    (ts : t.ts = s.ts := by exact rfl) (ss : t.ss = s.ss := by exact rfl) (dc : t.dc = s.dc := by exact rfl)
    (uc : t.uc = s.uc := by exact rfl) : t.Delivers d u := by
  have same : ∀ d, t.classifier d = s.classifier d := fun d => by cases d <;> assumption
  refine ⟨h.exact.congr (by rw [ts]) (by rw [ts]) (State.isHeld_congr (fun d => by rw [same]) fun k => by rw [ss]), ?_,
    fun d' u' => ?_⟩
  · rw [same]
    exact h.working
  · rw [same]
    exact h.other d' u'

/-- The classifier of a unit gives up the state WORKING, and the Table Store agrees with the holders that are left. -/
theorem State.Delivers.resting {d : Direction} {u : UnitOfWork} {s t : State} {c : Classifier} (h : s.Delivers d u)
    (hc : ∀ u, c ≠ .working u) (t_classifier : ∀ d', t.classifier d' = (s.setClassifier d c).classifier d')
    (exact : t.DrainExact) : t.Resting := by
  refine ⟨exact, fun d' u' => ?_⟩
  rw [t_classifier]
  by_cases same : d' = d
  · rw [same, State.classifier_setClassifier]
    exact hc u'
  · rw [State.classifier_setClassifier_ne s c same]
    exact h.other d' u' same

/-- A unit that delivers ends or stalls: its classifier is no longer WORKING, and a set that it gives up is noticed. -/
theorem deliver_resting {d : Direction} {u : UnitOfWork} (outputs : List Output) {s : State} (h : s.Delivers d u) :
    (deliver d u outputs s).Resting := by
  refine deliver_keeps (P := State.Delivers d u) (Q := State.Resting) (fun s h => ?ended) (fun s outputs timer h => ?stalled)
    (fun _ _ _ h => h.congr) (fun _ h => h.congr) (fun _ _ _ h => h.congr) (fun _ _ _ h => h.congr)
    (fun s k silent verdict h => ?report) outputs s h
  case ended =>
    refine h.resting (c := .idle) (fun _ => Classifier.noConfusion) (State.checkDrain_classifier _) ?_
    refine State.checkDrain_exact fun held => ?_
    rw [State.setClassifier_ts] at held ⊢
    refine h.exact.mpr (State.isHeld_of_le (fun d' => ?_) (fun k => ?_) held)
    · by_cases same : d' = d
      · rw [same, State.classifier_setClassifier]
        exact fun none => nomatch none
      · rw [State.classifier_setClassifier_ne s _ same]
        exact id
    · rw [State.setClassifier_ss]
      exact id
  case stalled =>
    refine h.resting (c := .stalled { u with outputs := outputs, holdTimer := timer }) (fun _ => Classifier.noConfusion)
      (fun _ => rfl) ?_
    refine h.exact.congr (by rw [State.stall, State.setClassifier_ts]) (by rw [State.stall, State.setClassifier_ts]) ?_
    refine State.isHeld_setClassifier d ?_
    rw [h.working]
    rfl
  case report =>
    refine ⟨State.report_exact h.exact k silent verdict, ?_, fun d' u' => ?_⟩
    · rw [State.report_classifier]
      exact h.working
    · rw [State.report_classifier]
      exact h.other d' u'

/-- A classifier that sets to work, on a set whose holding changes nothing for the Table Store, ends or stalls. -/
theorem State.Resting.resume {s : State} (h : s.Resting) {d : Direction} {u : UnitOfWork}
    (held : (Classifier.working u).held = some s.ts.edit ↔ (s.classifier d).held = some s.ts.edit)
    (outputs : List Output) : (s.resume d u outputs).Resting := by
  refine deliver_resting outputs ⟨?_, State.classifier_setClassifier s d _, fun d' u' other => ?_⟩
  · exact h.1.congr (by rw [State.setClassifier_ts]) (by rw [State.setClassifier_ts]) (State.isHeld_setClassifier d held)
  · rw [State.classifier_setClassifier_ne s _ other]
    exact h.2 d' u'

/-- A stalled unit goes on with the set it holds. -/
theorem State.Resting.resume_stalled {s : State} (h : s.Resting) {d : Direction} {u : UnitOfWork}
    (stalled : s.classifier d = .stalled u) (outputs : List Output) : (s.resume d u outputs).Resting :=
  h.resume (by rw [stalled]; rfl) outputs

theorem SetId.other_ne (i : SetId) : i ≠ i.other := by cases i <;> decide

/-- A new unit holds the live set, which is not the edit set (R21). -/
theorem State.Resting.resume_idle {s : State} (h : s.Resting) {d : Direction} {u : UnitOfWork}
    (idle : s.classifier d = .idle) (live : u.set = s.ts.live) (outputs : List Output) :
    (s.resume d u outputs).Resting := by
  refine h.resume (iff_of_false (fun held => ?_) ?_) outputs
  · exact s.ts.live.other_ne (live.symm.trans (Option.some.inj held))
  · rw [idle]
    exact fun none => nomatch none

theorem Classifier.eq_stalled_of_waitsForMailbox {c : Classifier} {u : UnitOfWork} (h : c.waitsForMailbox = some u) :
    c = .stalled u := by
  unfold Classifier.waitsForMailbox at h
  split at h
  · split at h
    · cases h; rfl
    · cases h
  · cases h

theorem Classifier.eq_stalled_of_waitsForFieldQueue {c : Classifier} {u : UnitOfWork}
    (h : c.waitsForFieldQueue = some u) : c = .stalled u := by
  unfold Classifier.waitsForFieldQueue at h
  split at h
  · split at h
    · cases h; rfl
    · cases h
  · cases h

theorem State.Resting.giveMailboxSlot {s : State} (h : s.Resting) : s.giveMailboxSlot.Resting := by
  unfold State.giveMailboxSlot
  split
  · next waits => exact h.resume_stalled (d := .upstream) (Classifier.eq_stalled_of_waitsForMailbox waits) _
  · next waits => exact h.resume_stalled (d := .downstream) (Classifier.eq_stalled_of_waitsForMailbox waits) _
  · exact h

theorem State.Resting.fillFieldQueue {s : State} (h : s.Resting) : s.fillFieldQueue.Resting := by
  unfold State.fillFieldQueue
  split
  · next waits => exact h.resume_stalled (d := .downstream) (Classifier.eq_stalled_of_waitsForFieldQueue waits) _
  · exact h

theorem State.Resting.goOn {s : State} (h : s.Resting) (d : Direction) : (s.goOn d).Resting := by
  unfold State.goOn
  split
  · next stalled => exact h.resume_stalled stalled _
  · exact h

theorem State.Resting.giveSlot {s : State} (h : s.Resting) (p : Producer) (e : TsqEntry) : (s.giveSlot p e).Resting := by
  have entered : (s.enterTsq e).Resting := h.congr
  cases p with
  | mu | la | am => exact entered.congr
  | uc => exact entered.goOn .upstream
  | dc => exact entered.goOn .downstream
  | ss k => exact entered.setSweep k Iff.rfl

theorem State.Resting.serve {s : State} (h : s.Resting) : s.serve.Resting :=
  State.serve_keeps (P := State.Resting) (fun _ p e _ _ h => h.giveSlot p e) h

/-! ### Between commands -/

/-- Between commands the part rests, and the Management Unit is not EXECUTING (log 5). -/
def State.Quiet (s : State) : Prop := s.Resting ∧ s.mu ≠ .executing

theorem State.Quiet.congr {s t : State} (h : s.Quiet) (state : t.ts.state = s.ts.state := by exact rfl)
    (edit : t.ts.edit = s.ts.edit := by exact rfl) (ss : t.ss = s.ss := by exact rfl) (dc : t.dc = s.dc := by exact rfl)
    (uc : t.uc = s.uc := by exact rfl) (mu : t.mu = s.mu := by exact rfl) : t.Quiet :=
  ⟨h.1.congr state edit ss dc uc, mu ▸ h.2⟩

/-- The acts of a unit leave the Management Unit alone. -/
theorem State.UnitFrame.mu {s t : State} (h : s.UnitFrame t) : t.mu = s.mu := by
  rw [State.UnitFrame] at h
  rw [h]

theorem State.Quiet.giveSlot {s : State} (h : s.Quiet) (p : Producer) (e : TsqEntry) : (s.giveSlot p e).Quiet := by
  refine ⟨h.1.giveSlot p e, ?_⟩
  cases p with
  | mu => exact ManagementUnit.noConfusion
  | uc =>
    rw [State.giveSlot, ((s.enterTsq e).goOn_frame .upstream).mu]
    exact h.2
  | dc =>
    rw [State.giveSlot, ((s.enterTsq e).goOn_frame .downstream).mu]
    exact h.2
  | la | am | ss => exact h.2

theorem State.Quiet.serviceTrunk {s : State} (h : s.Quiet) : s.serviceTrunk.Quiet :=
  State.serviceTrunk_keeps (P := State.Quiet) (fun _ p e _ _ h => h.giveSlot p e) (fun _ _ h => h.congr)
    (fun _ h => h.congr) (fun _ _ _ _ _ h => h.congr) h

/-- The response ends the execution: the Management Unit waits with it, or is IDLE once it is admitted (R164). -/
theorem State.Resting.answer {s : State} (h : s.Resting) (e : TsqEntry) : (s.answer e).Quiet := by
  have waits : State.Quiet { s.serve with mu := .waiting e } := ⟨h.serve.congr, ManagementUnit.noConfusion⟩
  exact (State.serve_keeps (P := State.Quiet) (fun _ p e _ _ h => h.giveSlot p e) waits).serviceTrunk

/-- The part as a step leaves it: nothing due on either line, and nothing under way inside. -/
structure State.AtRest (s : State) : Prop where
  trunk : s.TrunkSteady
  field : s.FieldSteady
  quiet : s.Quiet

theorem State.atRest_iff (s : State) : s.AtRest ↔ s.Steady ∧ s.EditSetFree ∧ s.BetweenActs := by
  have drain : s.DrainExact ↔ (s.ts.state = .draining → s.isHeld s.ts.edit = true) ∧ s.EditSetFree := by
    have free : s.EditSetFree ↔ (s.isHeld s.ts.edit = true → s.ts.state = .draining) := by
      rw [State.EditSetFree, ← Bool.not_eq_true]
      exact not_imp_not
    rw [free]
    exact iff_iff_implies_and_implies
  have working : (∀ d u, s.classifier d ≠ .working u) ↔ (∀ u, s.dc ≠ .working u) ∧ ∀ u, s.uc ≠ .working u :=
    ⟨fun h => ⟨h .downstream, h .upstream⟩, fun h d => by cases d; exacts [h.1, h.2]⟩
  constructor
  · rintro ⟨⟨admitted, started, changed⟩, field, ⟨exact, idle⟩, mu⟩
    obtain ⟨draining, free⟩ := drain.mp exact
    obtain ⟨dc, uc⟩ := working.mp idle
    exact ⟨⟨admitted, started, changed, field, draining⟩, free, dc, uc, mu⟩
  · rintro ⟨⟨admitted, started, changed, field, draining⟩, free, dc, uc, mu⟩
    exact ⟨⟨admitted, started, changed⟩, field, ⟨drain.mpr ⟨draining, free⟩, working.mpr ⟨dc, uc⟩⟩, mu⟩

/-- An act that ends by serving the trunk side leaves the part at rest, if it left it quiet and no field line change due. -/
theorem State.Quiet.atRest {s : State} (h : s.Quiet) (field : s.FieldSteady) : s.serviceTrunk.AtRest :=
  ⟨s.serviceTrunk_steady, trunkSide_keeps_fieldSteady.serviceTrunk field, h.serviceTrunk⟩

end Sys2Proof.Machine
end

/-! ## Every act leaves the part at rest -/

section
namespace Sys2Proof.Machine

/-! ### Commands -/

theorem Sweep.held_halt (c : Sweep) (reason : EndReason) (station : Station) : (c.halt reason station).held = c.held := by
  rw [Sweep.halt, Sweep.fillNotice_eq]
  rfl

theorem Sweep.held_resume (c : Sweep) : c.resume.held = c.held := by
  unfold Sweep.resume
  dsimp only
  split <;> rfl

theorem Sweep.held_stop (c : Sweep) : c.stop.held = c.held := by
  unfold Sweep.stop
  split
  · rfl
  · rfl
  · rfl
  · split
    · rfl
    · exact c.held_halt _ _

theorem Sweep.held_trigger (c : Sweep) : c.trigger.held = c.held := by
  unfold Sweep.trigger
  split <;> rfl

@[simp] theorem TableStore.withTable_state (ts : TableStore) (i : SetId) (T : TableSet) :
    (ts.withTable i T).state = ts.state := by cases i <;> rfl

@[simp] theorem TableStore.withTable_live (ts : TableStore) (i : SetId) (T : TableSet) :
    (ts.withTable i T).live = ts.live := by cases i <;> rfl

@[simp] theorem TableStore.withTable_edit (ts : TableStore) (i : SetId) (T : TableSet) :
    (ts.withTable i T).edit = ts.edit := congrArg SetId.other (ts.withTable_live i T)

theorem State.Resting.withEdit {s : State} (h : s.Resting) (T : TableSet) : (s.withEdit T).Resting :=
  h.congr (s.ts.withTable_state _ T) (s.ts.withTable_edit _ T)

/-- While the Table Store is EDITABLE nobody holds the edit set, so after the flip it drains exactly if the old live set is
held (R91, R92). -/
theorem State.Resting.publish {s : State} (h : s.Resting) : s.publish.Resting := by
  refine ⟨?_, fun d => by cases d; exacts [h.2 .downstream, h.2 .upstream]⟩
  have edit : s.publish.ts.edit = s.ts.live := by
    unfold State.publish TableStore.edit
    dsimp only
    cases s.ts.live <;> rfl
  rw [State.DrainExact, edit, show s.publish.isHeld s.ts.live = s.isHeld s.ts.live from rfl]
  unfold State.publish
  dsimp only
  split
  · next held => exact iff_of_true rfl held
  · next free => exact iff_of_false StoreState.noConfusion free

/-- While the store copies nobody holds the edit set, and nobody holds it after (R93, R94). -/
theorem State.Quiet.copyEnd {s : State} (h : s.Quiet) (copying : s.ts.state = .copying) :
    State.Quiet { s with ts := { s.ts.withTable s.ts.edit (s.ts.table s.ts.live) with state := .editable } } := by
  have edit : TableStore.edit { s.ts.withTable s.ts.edit (s.ts.table s.ts.live) with state := .editable } = s.ts.edit :=
    s.ts.withTable_edit _ _
  refine ⟨⟨iff_of_false StoreState.noConfusion fun held => ?_, fun d => ?_⟩, h.2⟩
  · rw [edit] at held
    exact StoreState.noConfusion (copying.symm.trans (h.1.1.mpr held))
  · cases d
    · exact h.1.2 .downstream
    · exact h.1.2 .upstream

theorem State.configure_resting {s : State} (h : s.Resting) (c : ConfigRecord) : (s.configure c).Resting := by
  have frame := State.takeFieldChange_frame
    { s with
      config := c
      la := { s.la with counter := min s.la.counter c.tenureLimit }
      tp := if s.leavesTrunkChange c then s.tp else s.tp.offerChange c.trunkSettings
      fp := s.fp.offerChange c.fieldSettings }
  unfold State.FieldFrame at frame
  rw [State.configure, frame]
  exact h.congr

/-- The effect of a command leaves the part resting, and no field line change due. -/
theorem State.Executes.resting {s u : State} (effect : s.Executes u) (h : s.Resting) (field : s.FieldSteady) :
    u.Resting ∧ u.FieldSteady := by
  cases effect with
  | unchanged => exact ⟨h, field⟩
  | countersCleared | accumulatorsCleared | accumulatorsSetUp | bracketOpened | bracketClosed => exact ⟨h.congr, field⟩
  | configured image c => exact ⟨State.configure_resting h c, State.takeFieldChange_steady _⟩
  | tableWritten T => exact ⟨h.withEdit T, field⟩
  | published => exact ⟨h.publish, field⟩
  | sweepLoaded k | sweepStarted k => exact ⟨h.setSweep k Iff.rfl, field⟩
  | sweepResumed k => exact ⟨h.setSweep k (by rw [Sweep.held_resume]), field⟩
  | sweepStopped k => exact ⟨h.setSweep k (by rw [Sweep.held_stop]), field⟩
  | mailboxTaken e others =>
    have dropped : (s.dropOldest others).Resting := h.congr
    exact ⟨dropped.giveMailboxSlot, trunkSide_keeps_fieldSteady.giveMailboxSlot field⟩

/-! ### The acts -/

/-- On the field line nothing is owed on the trunk side, and nothing else is under way. -/
theorem State.AtRest.of_line {s t : State} (h : s.AtRest) (frame : s.LineFrame t) (field : t.FieldSteady) : t.AtRest := by
  obtain ⟨frame, -⟩ := frame
  rw [frame] at field ⊢
  exact ⟨h.trunk.congr rfl fun p none => by cases p <;> exact none, field, h.quiet.congr⟩

theorem State.judge_resting {s : State} (h : s.Resting) (d : Direction) (t : Telegram) :
    (s.judge d s.ts.live t).2.Resting :=
  State.judge_cases (Q := State.Resting) h h.congr fun _ _ _ => h.congr

theorem State.judge_ts (s : State) (d : Direction) (set : SetId) (t : Telegram) : (s.judge d set t).2.ts = s.ts :=
  State.judge_cases (Q := fun u => u.ts = s.ts) rfl rfl fun _ _ _ => rfl

theorem State.judge_classifier (s : State) (d d' : Direction) (set : SetId) (t : Telegram) :
    (s.judge d set t).2.classifier d' = s.classifier d' :=
  State.judge_cases (Q := fun u => u.classifier d' = s.classifier d') rfl (by cases d' <;> rfl)
    fun _ _ _ => by cases d' <;> rfl

theorem State.countWithheld_cases {Q : State → Prop} {s : State} (t : Telegram) (j : Judged) (kept : Q s)
    (counted : Q (s.count .withheld)) : Q (s.countWithheld t j) := by
  unfold State.countWithheld
  split
  · exact kept
  · exact counted

theorem State.Resting.downstreamUnit {s : State} (h : s.Resting) (idle : s.dc = .idle) (t : Telegram) :
    (s.downstreamUnit t).Resting := by
  have judged := State.judge_resting h .downstream t
  have ts := s.judge_ts .downstream s.ts.live t
  have free := (s.judge_classifier .downstream .downstream s.ts.live t).trans idle
  unfold State.downstreamUnit State.beginUnit
  dsimp only
  refine State.countWithheld_cases (Q := fun v => (v.resume .downstream _ _).Resting) t _ ?_ ?_
  · exact judged.resume_idle free (congrArg TableStore.live ts).symm _
  · have counted : ((s.judge .downstream s.ts.live t).2.count .withheld).Resting := judged.congr
    exact counted.resume_idle (d := .downstream) free (congrArg TableStore.live ts).symm _

theorem State.Resting.upstreamUnit {s : State} (h : s.Resting) (idle : s.uc = .idle) (r : OutcomeRecord) :
    (s.upstreamUnit r).Resting := by
  unfold State.upstreamUnit State.beginUnit
  split
  · next t _ =>
    have free := (s.judge_classifier .upstream .upstream s.ts.live t).trans idle
    exact (State.judge_resting h .upstream t).resume_idle free (congrArg TableStore.live (s.judge_ts ..)).symm _
  · exact h.resume_idle (d := .upstream) idle rfl _
  · exact h.resume_idle (d := .upstream) idle rfl _

/-- A grant leaves the part quiet: the sweep that it serves holds the live set, not the edit set (R136). -/
theorem State.Quiet.grant {s : State} (h : s.Quiet) {side : Side} {la : LineArbiter} (work : s.hasWork side = true) :
    (s.grant side la).Quiet := by
  refine State.grant_cases (Q := State.Quiet) work (fun e rest _ _ => ?_) (fun k i candidate => ?_) fun k _ => ?_
  · have taken : State.Quiet { s with la := la, fsq := rest } := h.congr
    have filled : State.Quiet (State.fillFieldQueue { s with la := la, fsq := rest }) :=
      ⟨taken.1.fillFieldQueue, by
        rw [(State.fillFieldQueue_frame _).mu]
        exact taken.2⟩
    exact filled.congr
  · obtain ⟨-, free, -⟩ := s.sweepCandidate_iff k |>.mp candidate
    refine ⟨State.Resting.congr (s := s.setSweep k { s.ss.get k with outstanding := some ((s.ss.get k).cursor, s.ts.live) })
      (h.1.setSweep k (iff_of_false (fun held => ?_) ?_)), h.2⟩
    · exact s.ts.live.other_ne (Option.some.inj held)
    · rw [Sweep.held, free]
      exact fun none => nomatch none
  · refine ⟨State.Resting.congr (s := s.setSweep k ((s.ss.get k).halt .listVoid broadcastStation)) (h.1.setSweep k ?_), h.2⟩
    rw [Sweep.held_halt]

/-- A transaction that starts leaves no line change due: the controller is not IDLE (R17). -/
theorem State.grant_fieldSteady {s : State} (h : s.FieldSteady) {side : Side} {la : LineArbiter}
    (work : s.hasWork side = true) : (s.grant side la).FieldSteady :=
  State.grant_cases (Q := State.FieldSteady) work (fun _ _ _ _ _ => .inl FlcState.noConfusion)
    (fun _ _ _ _ => .inl FlcState.noConfusion) fun _ _ => h

theorem State.judge_line (s : State) (d : Direction) (set : SetId) (t : Telegram) :
    (s.judge d set t).2.mu = s.mu ∧ (s.judge d set t).2.fp = s.fp ∧ (s.judge d set t).2.flc = s.flc :=
  State.judge_cases (Q := fun u => u.mu = s.mu ∧ u.fp = s.fp ∧ u.flc = s.flc) ⟨rfl, rfl, rfl⟩ ⟨rfl, rfl, rfl⟩
    fun _ _ _ => ⟨rfl, rfl, rfl⟩

/-- A unit leaves the Management Unit and the field line alone. -/
theorem State.resume_line (s : State) (d : Direction) (u : UnitOfWork) (outputs : List Output) :
    (s.resume d u outputs).mu = s.mu ∧ (s.resume d u outputs).fp = s.fp ∧ (s.resume d u outputs).flc = s.flc := by
  have frame := s.resume_frame d u outputs
  unfold State.UnitFrame at frame
  rw [frame]
  exact ⟨rfl, rfl, rfl⟩

theorem State.downstreamUnit_line (s : State) (t : Telegram) :
    (s.downstreamUnit t).mu = s.mu ∧ (s.downstreamUnit t).fp = s.fp ∧ (s.downstreamUnit t).flc = s.flc := by
  unfold State.downstreamUnit State.beginUnit
  dsimp only
  obtain ⟨mu, fp, flc⟩ := State.resume_line ((s.judge .downstream s.ts.live t).2.countWithheld t
    (s.judge .downstream s.ts.live t).1) .downstream _ _
  rw [mu, fp, flc]
  exact State.countWithheld_cases (Q := fun u => u.mu = s.mu ∧ u.fp = s.fp ∧ u.flc = s.flc) t _ (s.judge_line _ _ _)
    (s.judge_line _ _ _)

theorem State.upstreamUnit_line (s : State) (r : OutcomeRecord) :
    (s.upstreamUnit r).mu = s.mu ∧ (s.upstreamUnit r).fp = s.fp ∧ (s.upstreamUnit r).flc = s.flc := by
  unfold State.upstreamUnit State.beginUnit
  split
  · next t _ =>
    obtain ⟨mu, fp, flc⟩ := State.resume_line (s.judge .upstream s.ts.live t).2 .upstream _ _
    rw [mu, fp, flc]
    exact s.judge_line _ _ _
  · exact s.resume_line _ _ _
  · exact s.resume_line _ _ _

/-- An act of a unit leaves the part at rest, if it leaves it resting and the rest alone. -/
theorem State.Resting.atRest {s t : State} (h : t.Resting) (line : t.mu = s.mu ∧ t.fp = s.fp ∧ t.flc = s.flc)
    (field : s.FieldSteady) (mu : s.mu ≠ .executing) : t.serviceTrunk.AtRest := by
  obtain ⟨t_mu, fp, flc⟩ := line
  refine State.Quiet.atRest ⟨h, t_mu ▸ mu⟩ ?_
  rw [State.FieldSteady, fp, flc]
  exact field

/-- RESTART releases every set, and what that frees is noticed (R93, R176). -/
theorem State.restarted_quiet (s : State) : s.restarted.Quiet := by
  have classifier : ∀ d u, s.restarted.classifier d ≠ .working u := fun d u => by
    rw [State.restarted, State.checkDrain_classifier]
    cases d <;> exact Classifier.noConfusion
  refine ⟨⟨State.checkDrain_exact fun held => ?_, classifier⟩, ?_⟩
  · obtain ⟨d, held⟩ | ⟨k, held⟩ := (State.isHeld_iff _ _).mp held
    · cases d <;> cases held
    · rw [Four.get_map] at held
      cases held
  · rw [State.restarted, State.checkDrain_mu]
    exact ManagementUnit.noConfusion

theorem State.checkDrain_fieldSteady {s : State} (h : s.FieldSteady) : s.checkDrain.FieldSteady := by
  rwa [State.FieldSteady, State.checkDrain_fp, State.checkDrain_flc]

theorem State.powerOn_quiet (straps : Station) (level : Level) (pause : Bool) : (State.powerOn straps level pause).Quiet := by
  refine ⟨⟨iff_of_false StoreState.noConfusion ?_, fun d => ?_⟩, ManagementUnit.noConfusion⟩
  · rw [State.isHeld_powerOn]
    exact Bool.false_ne_true
  · cases d <;> exact fun _ => Classifier.noConfusion

theorem State.powerOn_noneWaits (straps : Station) (level : Level) (pause : Bool) (p : Producer) :
    (State.powerOn straps level pause).waitsWith p = none := by
  cases p with
  | ss k => fin_cases k <;> rfl
  | _ => rfl

theorem State.powerOn_atRest (straps : Station) (level : Level) (pause : Bool) : (State.powerOn straps level pause).AtRest where
  trunk :=
    { admitted := fun _ => (State.firstWaiting_eq_none_iff _).mpr (State.powerOn_noneWaits straps level pause)
      started := fun _ some => absurd rfl some
      changed := fun _ none => nomatch none }
  field waits := absurd rfl waits
  quiet := State.powerOn_quiet straps level pause

/-- The commands that wait are nothing that is due. -/
theorem State.AtRest.withPending {s : State} (h : s.AtRest) (q : List Instr) : State.AtRest { s with pending := q } := by
  have waiting : ∀ p, State.waitsWith { s with pending := q } p = s.waitsWith p := fun p => by cases p <;> rfl
  exact ⟨h.trunk.congr rfl fun p => (waiting p).trans, h.field, h.quiet.congr⟩

theorem State.Quiet.triggerBound {s : State} (h : s.Quiet) : s.triggerBound.Quiet := by
  unfold State.triggerBound
  split
  · next k _ => exact ⟨h.1.setSweep k (by rw [Sweep.held_trigger]), h.2⟩
  · exact h

theorem State.triggerBound_fieldSteady {s : State} (h : s.FieldSteady) : s.triggerBound.FieldSteady := by
  unfold State.triggerBound
  split
  · exact h
  · exact h

/-- A sweep that keeps its notice keeps waiting, or keeps not waiting, for TSQ. -/
theorem State.waitsWith_setSweep {s : State} (k : SweepId) {c : Sweep} (notice : c.notice = (s.ss.get k).notice)
    (p : Producer) : (s.setSweep k c).waitsWith p = s.waitsWith p := by
  cases p with
  | ss j =>
    rw [State.waitsWith, State.waitsWith, State.setSweep_ss, Four.get_set]
    split
    · next same => rw [notice, same]
    · rfl
  | _ => rfl

/-- Every act leaves nothing due on either line, and nothing under way inside. -/
theorem State.Act.atRest {s t : State} (act : s.Act t) (h : s.AtRest) : t.AtRest := by
  have ⟨trunk, field, quiet⟩ := h
  cases act with
  | nothing => exact h
  | poweredOn straps level => exact (State.powerOn_atRest straps level s.tp.pause).withPending s.pending
  | onFieldLine t act => exact h.of_line act.frame act.steady
  | trunkTelegramsEnded f ended =>
    have sorted : (ended.foldl sortTrunk { s with tp := { s.tp with framer := f } }).Quiet ∧
        (ended.foldl sortTrunk { s with tp := { s.tp with framer := f } }).FieldSteady :=
      foldl_sortTrunk_keeps (P := fun s => s.Quiet ∧ s.FieldSteady) (fun _ _ h => ⟨h.1.congr, h.2⟩)
        (fun _ _ _ h => ⟨h.1.congr, h.2⟩) (fun _ _ _ h => ⟨h.1.congr, h.2⟩) ended ⟨quiet.congr, field⟩
    exact sorted.1.atRest sorted.2
  | trunkTelegramBegun =>
    exact ⟨⟨trunk.admitted, trunk.started, fun _ _ _ => .inl Framer.noConfusion⟩, field, quiet.congr⟩
  | pauseAsserted =>
    refine ⟨⟨fun room => ?_, fun idle some => ?_, trunk.changed⟩, field, quiet.congr⟩
    · exact (State.firstWaiting_congr rfl rfl rfl rfl rfl fun _ => rfl).trans (trunk.admitted room)
    · exact (trunk.started idle some).imp_left fun paused => ⟨rfl, paused.2⟩
  | pauseReleased => exact State.Quiet.atRest quiet.congr field
  | trunkTelegramSent x => exact State.Quiet.atRest quiet.congr field
  | requestTaken t rest idle head =>
    have taken : (s.setTrq rest).Resting := quiet.1.congr
    exact (taken.downstreamUnit idle t).atRest (State.downstreamUnit_line _ t) field quiet.2
  | outcomeTaken r rest idle head =>
    have taken : State.Resting { s with flc := { s.flc with frq := rest } } := quiet.1.congr
    exact (taken.upstreamUnit idle r).atRest (State.upstreamUnit_line _ r) field quiet.2
  | copyLost d u waits =>
    have counted : (s.count .mailboxLost).Resting := quiet.1.congr
    have stalled : (s.count .mailboxLost).classifier d = .stalled u := by
      have waits := Classifier.eq_stalled_of_waitsForMailbox waits
      cases d <;> exact waits
    exact (counted.resume_stalled stalled _).atRest (State.resume_line _ d u _) field quiet.2
  | granted side la idle decided =>
    obtain ⟨work, -⟩ := State.decideGrant_eq_some decided
    exact (quiet.grant work).atRest (State.grant_fieldSteady field work)
  | copyEnded copying =>
    have none : ∀ p, State.waitsWith { s with
        ts := { s.ts.withTable s.ts.edit (s.ts.table s.ts.live) with state := .editable } } p = s.waitsWith p := fun p => by
      cases p <;> rfl
    exact ⟨trunk.congr rfl fun p => (none p).trans, field, quiet.copyEnd copying⟩
  | bracketExpired => exact State.Quiet.atRest quiet.congr field
  | periodExpired k waiting =>
    exact ⟨trunk.congr rfl fun p none => (State.waitsWith_setSweep k (c := (s.ss.get k).periodExpires) rfl p).trans none, field,
      quiet.1.setSweep k Iff.rfl, quiet.2⟩
  | attentionTaken =>
    exact (State.Quiet.triggerBound quiet.congr).atRest (State.triggerBound_fieldSteady field)
  | attentionKept level =>
    refine ⟨trunk.congr rfl fun p none => ?_, field, quiet.congr⟩
    cases p with
    | am => simpa [State.waitsWith] using none
    | _ => exact none
  | restarted => exact s.restarted_quiet.atRest (State.checkDrain_fieldSteady field)
  | commanded t rest u e head effect =>
    obtain ⟨resting, steady⟩ := effect.resting (State.Resting.congr quiet.1) field
    exact ⟨State.serviceTrunk_steady _, trunkSide_keeps_fieldSteady.answer e steady, resting.answer e⟩

/-! ### The millisecond -/

theorem Classifier.trunkWait_tick (c : Classifier) : c.tick.trunkWait = c.trunkWait := by cases c <;> rfl

theorem Classifier.held_tick (c : Classifier) : c.tick.held = c.held := by cases c <;> rfl

theorem Classifier.tick_ne_working {c : Classifier} (h : ∀ u, c ≠ .working u) (u : UnitOfWork) : c.tick ≠ .working u := by
  cases c with
  | working v => exact absurd rfl (h v)
  | idle => exact Classifier.noConfusion
  | stalled v => exact Classifier.noConfusion

theorem State.classifier_tick (s : State) (d : Direction) : s.tick.classifier d = (s.classifier d).tick := by cases d <;> rfl

theorem State.waitsWith_tick (s : State) (p : Producer) : s.tick.waitsWith p = s.waitsWith p := by
  cases p with
  | uc => exact s.uc.trunkWait_tick
  | dc => exact s.dc.trunkWait_tick
  | ss k =>
    rw [State.waitsWith, State.tick, Four.get_map]
    rfl
  | mu | la | am => rfl

/-- The millisecond counts timers down, and nothing becomes due. -/
theorem State.AtRest.tick {s : State} (h : s.AtRest) : s.tick.AtRest := by
  obtain ⟨trunk, field, ⟨exact, idle⟩, mu⟩ := h
  refine ⟨trunk.congr rfl fun p none => (s.waitsWith_tick p).trans none, field, ⟨exact.congr ?_ ?_ ?_, fun d u => ?_⟩, mu⟩
  · rfl
  · rfl
  · refine State.isHeld_congr (fun d => ?_) fun k => ?_
    · rw [s.classifier_tick, Classifier.held_tick]
    · rw [State.tick, Four.get_map]
      rfl
  · rw [s.classifier_tick]
    exact Classifier.tick_ne_working (idle d) u

/-- Settles O58: the acts that may leave something due end by serving the trunk side, which does all of it; the others make
nothing due. Every set that is given up is noticed in the same act. -/
theorem stepLeavesNothingDue : Obligations.StepLeavesNothingDue := by
  intro s t steady free between hstep
  exact t.atRest_iff.mp (step_keeps (fun s q h => h.withPending q) (fun s h => h.tick) (fun s t h act => act.atRest h)
    (s.atRest_iff.mpr ⟨steady, free, between⟩) hstep)

end Sys2Proof.Machine
end

/-! ## Steps and the values after reset -/

section
namespace Sys2Proof.Machine

/-- Settles O1: the step's first branch. -/
theorem stepRunsFrontCommand : Obligations.StepRunsFrontCommand := fun _ _ _ => rfl

/-- Settles O2: on an empty queue the step is the tick, which each block takes by itself. -/
theorem emptyQueueStepIsOneMillisecond : Obligations.EmptyQueueStepIsOneMillisecond := by
  intro s empty
  refine ⟨s.tick, ?_, rfl, rfl, ?_, rfl, fun d => ?_, fun k => ?_⟩
  · rw [step, empty]
  · rw [State.tick]
    cases s.flc.window <;> rfl
  · rw [s.classifier_tick]
    cases s.classifier d <;> rfl
  · rw [State.tick, Four.get_map]
    rfl

/-- Settles O4: the power-on state, value by value. -/
theorem powerOnResetGivesPowerOnValues : Obligations.PowerOnResetGivesPowerOnValues := by
  intro straps level s
  refine ⟨_, rfl, ?_⟩
  refine ⟨rfl, rfl, rfl, rfl, rfl, rfl, rfl, rfl, rfl, rfl, rfl, rfl, rfl, rfl, rfl, rfl, rfl, rfl, rfl, rfl, rfl, rfl, rfl,
    rfl, rfl, fun _ => rfl, rfl, rfl, rfl, rfl, rfl, rfl, fun k => ?_, rfl, rfl⟩
  cases k <;> rfl

/-- The two sets are the live set and the edit set (section 6.2). -/
theorem TableStore.sets_eq_of_table_eq {ts : TableStore} {T : TableSet} (live : ts.table ts.live = T)
    (edit : ts.table ts.edit = T) : ts.set0 = ts.set1 := by
  have same := live.trans edit.symm
  unfold TableStore.edit at same
  cases which : ts.live with
  | zero =>
    rw [which] at same
    exact same
  | one =>
    rw [which] at same
    exact same.symm

/-- Settles O16: the copy writes the edit set, so both sets read as the live set. -/
theorem copyEndEqualizesTheSets : Obligations.CopyEndEqualizesTheSets := by
  intro s
  constructor
  · intro copying
    have live : TableStore.table (s.ts.withTable s.ts.edit (s.ts.table s.ts.live)) s.ts.live = s.ts.table s.ts.live := by
      exact (TableStore.table_withTable ..).trans (if_neg s.ts.live.other_ne)
    refine ⟨{ s with ts := { s.ts.withTable s.ts.edit (s.ts.table s.ts.live) with state := .editable } }, ?_, rfl, ?_, ?_,
      s.ts.withTable_live _ _, ?_, rfl⟩
    · rw [exec, execCopyEnd, if_pos copying]
    · refine TableStore.sets_eq_of_table_eq (ts := s.ts.withTable s.ts.edit (s.ts.table s.ts.live))
        (T := s.ts.table s.ts.live) ?_ ?_
      · rw [TableStore.withTable_live, live]
      · rw [TableStore.withTable_edit, TableStore.table_withTable, if_pos rfl]
    · exact (congrArg (TableStore.table _) (s.ts.withTable_live _ _)).trans live
    · unfold TableStore.withTable
      cases s.ts.edit <;> rfl
  · intro kept
    rw [exec, execCopyEnd, if_neg kept]

/-- Settles O60: reset is at rest, its queues are empty and its records the power-on ones. -/
theorem invariantsHoldAtReset : Obligations.InvariantsHoldAtReset := by
  have data := State.dataSound_iff State.reset |>.mp ⟨dataKeeps_sound.bankPowerOn, fun i => by
    cases i <;> exact dataKeeps_sound.setPowerOn⟩
  have sweeps : State.reset.SweepPositionsOk ∧ State.reset.SweepTimersOk := State.reset.sweepsConsistent_iff.mp fun k => by
    fin_cases k <;> exact Sweep.powerOn_consistent
  have queues : State.reset.QueuesBounded := by
    constructor <;> simp [State.reset, State.powerOn, TrunkPort.powerOn, FieldLineController.powerOn, Mailbox.powerOn]
  have line : State.reset.FieldLineConsistent := fieldLineConsistent_of_idle ⟨rfl, rfl⟩ rfl rfl rfl rfl
  obtain ⟨steady, free, between⟩ := State.reset.atRest_iff.mp (State.powerOn_atRest 0 .released false)
  obtain ⟨counters, config, tenure, attention, numbered, hold⟩ :=
    State.reset.countsHold_iff.mp (State.powerOn_countsHold 0 .released false)
  exact ⟨queues, line, data.2, sweeps.1, sweeps.2, steady, free, between, counters, config, tenure, attention, numbered,
    hold, data.1⟩

end Sys2Proof.Machine
end

/-! ## The end of an act on the trunk side, and what a management row does around its body -/

section
namespace Sys2Proof.Machine

/-! ### The start of the head of TSQ (R12, R13) -/

/-- While nobody waits, the end of an act is a line change and a start. -/
theorem State.serviceTrunk_of_noneWaiting {s : State} (noneWaits : s.firstWaiting = none) :
    s.serviceTrunk = s.takeTrunkChange.startHead := by
  rw [State.serviceTrunk, State.serve_of_noneWaiting noneWaits]

theorem State.serviceTrunk_of_full {s : State} (full : 16 ≤ s.tp.tsq.length) :
    s.serviceTrunk = s.takeTrunkChange.startHead := by
  rw [State.serviceTrunk, State.serve_of_full full]

theorem TrunkPort.blocked_of_noChange {p : TrunkPort} (h : p.change = none) : p.blocked = false := by
  rw [TrunkPort.blocked, h]

theorem TrunkPort.blocked_of_unsent {p : TrunkPort} (h : ∀ c, p.change = some c → c.sent = false) : p.blocked = false := by
  unfold TrunkPort.blocked
  split
  · next c waits => exact h c waits
  · rfl

/-- A head that has been counted under pause stays. -/
theorem State.startHead_of_counted {s : State} (paused : s.tp.pause = true) (counted : s.tp.headCounted = true) :
    s.startHead = s := by
  unfold State.startHead
  split
  · rw [if_pos paused, if_pos counted, ite_self]
  · rfl

/-- A head that may start but for pause is counted. -/
theorem State.startHead_of_uncounted {s : State} (idle : s.tp.sending = none) (due : s.tp.tsq ≠ [])
    (unblocked : s.tp.blocked = false) (paused : s.tp.pause = true) (uncounted : s.tp.headCounted = false) :
    s.startHead = State.count { s with tp := { s.tp with headCounted := true } } .trunkPauseWaits := by
  obtain ⟨e, rest, head⟩ := List.exists_cons_of_ne_nil due
  simp [State.startHead, idle, head, unblocked, paused, uncounted]

/-- A head that is blocked stays. -/
theorem State.startHead_of_blocked {s : State} (blocked : s.tp.blocked = true) : s.startHead = s := by
  unfold State.startHead
  split
  · rw [if_pos blocked]
  · rfl

/-- The telegram of TSQ as the transmitter takes it (R2, R13). -/
def TrunkPort.start (p : TrunkPort) (e : TsqEntry) : TrunkSend :=
  ⟨lineBytes (addressByte true false p.ownAddress) e.function e.payload, e.awaited⟩

/-- With nobody waiting for its slot, the head is started. -/
theorem State.startHead_of_free {s : State} {e : TsqEntry} {rest : List TsqEntry} (noneWaits : s.firstWaiting = none)
    (idle : s.tp.sending = none) (head : s.tp.tsq = e :: rest) (unblocked : s.tp.blocked = false)
    (free : s.tp.pause = false) :
    s.startHead = { s with tp := { s.tp with sending := some (s.tp.start e), tsq := rest, headCounted := false } } := by
  unfold State.startHead
  simp only [idle, head, unblocked, free, Bool.false_eq_true, if_false]
  exact State.serve_of_noneWaiting ((State.firstWaiting_congr rfl rfl rfl rfl rfl fun _ => rfl).trans noneWaits)

/-! ### The response (R14, R164) -/

/-- A waiting response comes first among those that wait. -/
theorem State.firstWaiting_of_response (s : State) (e : TsqEntry) :
    ({ s with mu := .waiting e } : State).firstWaiting = some (.mu, e) := rfl

/-- With a free slot the response enters TSQ, and the head is started if it may. -/
theorem State.answer_of_room {s : State} {e : TsqEntry} (executing : s.mu = .executing) (noneWaits : s.firstWaiting = none)
    (room : s.tp.tsq.length < 16) :
    s.answer e =
      (State.takeTrunkChange { s with mu := .idle, tp := { s.tp with tsq := s.tp.tsq ++ [e] } }).startHead := by
  rw [State.answer, State.respond_of_room executing noneWaits room]
  exact State.serviceTrunk_of_noneWaiting (State.firstWaiting_of_executing executing noneWaits _)

theorem State.answer_of_unblocked {s : State} {e : TsqEntry} (executing : s.mu = .executing)
    (noneWaits : s.firstWaiting = none) (room : s.tp.tsq.length < 16) (noChange : s.tp.change = none) :
    s.answer e = State.startHead { s with mu := .idle, tp := { s.tp with tsq := s.tp.tsq ++ [e] } } := by
  rw [State.answer_of_room executing noneWaits room]
  exact congrArg State.startHead (State.takeTrunkChange_of_none noChange)

/-! ### Rows that are not due, or whose payload is unfit (R164, R165) -/

/-- Where the Management Unit is not IDLE, or MCQ is empty, no row happens. -/
theorem manage_of_notDue {s : State} {isRow : Telegram → Bool} {body : Body} (notDue : s.mu ≠ .idle ∨ s.tp.mcq = []) :
    manage isRow body s = s :=
  notDue.elim manage_of_busy manage_of_empty

theorem State.restartDue_of_notDue {s : State} (notDue : s.mu ≠ .idle ∨ s.tp.mcq = []) : s.restartDue = false := by
  unfold State.restartDue
  split
  · next idle head =>
    rw [head] at notDue
    exact notDue.elim (absurd idle) (fun none => nomatch none)
  · rfl

/-- Settles O7: the response is admitted, waits, or takes the slot of the head that starts, as the trunk side has room. -/
theorem managementTakesHeadAndAnswers : Obligations.ManagementTakesHeadAndAnswers := by
  refine ⟨fun _ _ => rfl, ?room, ?full, ?freed, ?notDue⟩
  case room =>
    intro s e executing noneWaits
    refine ⟨fun room busy => ?_, fun room idle change paused counted => ?_, fun room idle change paused uncounted => ?_,
      fun empty idle change free => ?_⟩
    · rw [State.answer_of_room executing noneWaits room,
        State.takeTrunkChange_of_sending (by exact busy), State.startHead_of_sending (by exact busy)]
    · rw [State.answer_of_unblocked executing noneWaits room change]
      exact State.startHead_of_counted paused counted
    · rw [State.answer_of_unblocked executing noneWaits room change]
      exact State.startHead_of_uncounted idle (by simp) (TrunkPort.blocked_of_noChange change) paused uncounted
    · rw [State.answer_of_unblocked executing noneWaits (by simp [empty]) change]
      refine State.startHead_of_free (State.firstWaiting_of_executing executing noneWaits _) idle ?_
        (TrunkPort.blocked_of_noChange change) free
      simp [empty]
  case full =>
    intro s e executing full notFree
    rw [State.answer, State.respond_of_full full, State.serviceTrunk_of_full (by exact full)]
    obtain busy | ⟨change, paused, counted⟩ := notFree
    · rw [State.takeTrunkChange_of_sending (by exact busy), State.startHead_of_sending (by exact busy)]
    · rw [State.takeTrunkChange_of_none (by exact change), State.startHead_of_counted (by exact paused) (by exact counted)]
  case freed =>
    intro s h e rest executing head full idle unsent free
    rw [State.answer, State.respond_of_full (by simp [head, full])]
    exact State.serviceTrunk_of_freed idle (TrunkPort.blocked_of_unsent unsent) free head full
      (State.firstWaiting_of_response s e) rfl (by simp [full])
  case notDue =>
    intro s c row notDue
    have kept : ∀ {isRow body}, Host.Outcome.next (manage isRow body s) = (.next s : Host.Outcome State Fault Refusal) :=
      congrArg Host.Outcome.next (manage_of_notDue notDue)
    cases c with
    | identify | status | counters | configRead | configWrite | tableReadWindow | tableReadEntries | tableReadActionRecord
    | tableReadTranslateBytes | tableReadDelimiterSet | tableReadPatternBytes | tableReadSweepItem | tableWriteWindow
    | tableWriteEntries | tableWriteActionRecord | tableWriteTranslateBytes | tableWriteDelimiterSet
    | tableWritePatternBytes | tableWriteSweepItem | publish | accRead | accSetup | accClear | sweepLoad | sweepStart
    | sweepResume | sweepStop | sweepRead | mailboxTake | bracketOpen | bracketClose | unknownCommand => exact kept
    | restart =>
      rw [exec, execRestart, State.restartDue_of_notDue notDue]
      exact kept
    | _ => simp at row

end Sys2Proof.Machine
end

/-! ## RESTART, and what a management command answers -/

section
namespace Sys2Proof.Machine

/-! ### RESTART (R176) -/

theorem State.restartDue_of_atHead {s : State} {t : Telegram} {rest : List Telegram} (head : s.atHead t rest)
    (code : t.function = 0x7F) (bare : t.payload = []) : s.restartDue = true := by
  obtain ⟨idle, mcq⟩ := head
  simp [State.restartDue, idle, mcq, hasCode_of (code := codeRestart) code, bare]

/-- The drain check looks for a holder of the edit set: with none, DRAINING ends. -/
theorem State.checkDrain_of_free {s : State} (free : s.isHeld s.ts.edit = false) :
    s.checkDrain = { s with ts := { s.ts with state := if s.ts.state = .draining then .copying else s.ts.state } } := by
  unfold State.checkDrain
  split
  · next draining => rw [if_pos draining.1]
  · next kept =>
    rw [if_neg fun draining => kept ⟨draining, free⟩]

/-- After RESTART no consumer holds a set: no classifier has a unit and no sweep an item outstanding. -/
theorem State.isHeld_of_released {s : State} (dc : s.dc = .idle) (uc : s.uc = .idle)
    (items : ∀ k, (s.ss.get k).outstanding = none) (i : SetId) : s.isHeld i = false := by
  rw [← Bool.not_eq_true, State.isHeld_iff]
  rintro (⟨d, held⟩ | ⟨k, held⟩)
  · cases d
    · rw [State.classifier, dc] at held
      cases held
    · rw [State.classifier, uc] at held
      cases held
  · rw [Sweep.held, items k] at held
    cases held

/-- Settles O6: the one act of RESTART, block by block; the drain check finds every set released. -/
theorem restartIsOneAct : Obligations.RestartIsOneAct := by
  intro s t rest head code bare
  have released : s.restarted = _ := State.checkDrain_of_free
    (State.isHeld_of_released rfl rfl (fun k => by rw [Four.get_map]; rfl) _)
  refine ⟨s.restarted, ?_, ?_⟩
  · rw [exec, execRestart, if_pos (State.restartDue_of_atHead head code bare)]
  · rw [released]
    refine ⟨rfl, rfl, rfl, rfl, rfl, rfl, rfl, fun k => ?_⟩
    exact Four.get_map Sweep.restart s.ss k

end Sys2Proof.Machine
end

/-! ## Unfit commands -/

section
namespace Sys2Proof.Machine

/-! ### Commands of a fixed length (R165, R166) -/

/-- A body that takes payloads of `n` bytes alone. -/
def Body.Takes (n : Nat) (body : Body) : Prop := ∀ p s, p.length ≠ n → body p s = .error .badLength

theorem refusal_takes (n : Nat) : Body.Takes n fun _ _ => .error .badLength := fun _ _ _ => rfl

theorem imageBody_takes (image : State → List Byte) : Body.Takes 0 (imageBody image) := by
  intro p s unfit
  unfold imageBody
  split
  · exact absurd rfl unfit
  · rfl

theorem sweepBody_takes (act : SweepId → State → Except Result Done) : Body.Takes 1 (sweepBody act) := by
  intro p s unfit
  unfold sweepBody
  split
  · exact absurd rfl unfit
  · rfl

theorem configWriteBody_takes : Body.Takes 11 configWriteBody := fun _ _ unfit => if_neg unfit

theorem argumentBodies_take :
    Body.Takes 1 countersBody ∧ Body.Takes 0 publishBody ∧ Body.Takes 3 accReadBody ∧ Body.Takes 3 accSetupBody
      ∧ Body.Takes 2 accClearBody ∧ Body.Takes 10 sweepLoadBody ∧ Body.Takes 0 mailboxTakeBody
      ∧ Body.Takes 2 bracketOpenBody ∧ Body.Takes 0 bracketCloseBody := by
  refine ⟨?_, ?_, ?_, ?_, ?_, ?_, ?_, ?_, ?_⟩
  all_goals
    intro p s unfit
    simp only [countersBody, publishBody, accReadBody, accSetupBody, accClearBody, sweepLoadBody, mailboxTakeBody,
      bracketOpenBody, bracketCloseBody]
    split
    · exact absurd rfl unfit
    · rfl

/-- A command with a payload of another length is answered BAD_LENGTH. -/
theorem manage_unfit {s : State} {t : Telegram} {rest : List Telegram} {code : Byte} {n : Nat} {body : Body}
    (takes : body.Takes n) (head : s.atHead t rest) (function : t.function = code) (unfit : t.payload.length ≠ n) :
    (Host.Outcome.next (manage (hasCode code) body s) : Host.Outcome State Fault Refusal)
      = .next ((s.takeCommand rest).answer (bareResponse code 3)) :=
  congrArg Host.Outcome.next (manage_code_error (r := .badLength) head function rfl (takes _ _ unfit))

/-- RESTART with an argument goes by the same rule. -/
theorem State.restartDue_of_argument {s : State} {t : Telegram} {rest : List Telegram} (head : s.atHead t rest)
    (unfit : t.payload.length ≠ 0) : s.restartDue = false := by
  obtain ⟨idle, mcq⟩ := head
  simp [State.restartDue, idle, mcq, List.length_eq_zero_iff.not.mp unfit]

/-- The 18 commands of a fixed length. -/
theorem fixedLength_refused {s : State} {t : Telegram} {rest : List Telegram} (head : s.atHead t rest) {c : Instr} {code : Byte}
    {n : Nat} (row : (c, code, n) ∈ ([(.identify, 0x01, 0), (.status, 0x02, 0), (.counters, 0x03, 1), (.configRead, 0x10, 0),
        (.configWrite, 0x11, 11), (.publish, 0x22, 0), (.accRead, 0x30, 3), (.accSetup, 0x31, 3), (.accClear, 0x32, 2),
        (.sweepLoad, 0x40, 10), (.sweepStart, 0x41, 1), (.sweepResume, 0x42, 1), (.sweepStop, 0x43, 1),
        (.sweepRead, 0x44, 1), (.mailboxTake, 0x50, 0), (.bracketOpen, 0x60, 2), (.bracketClose, 0x61, 0),
        (.restart, 0x7F, 0)] : List (Instr × Byte × Nat)))
    (function : t.function = code) (unfit : t.payload.length ≠ n) :
    exec c s = .next ((s.takeCommand rest).answer (bareResponse code 3)) := by
  obtain ⟨counters, publish, accRead, accSetup, accClear, sweepLoad, mailboxTake, bracketOpen, bracketClose⟩ :=
    argumentBodies_take
  simp only [List.mem_cons, Prod.mk.injEq, List.not_mem_nil, or_false] at row
  obtain ⟨rfl, rfl, rfl⟩ | ⟨rfl, rfl, rfl⟩ | ⟨rfl, rfl, rfl⟩ | ⟨rfl, rfl, rfl⟩ | ⟨rfl, rfl, rfl⟩ | ⟨rfl, rfl, rfl⟩
    | ⟨rfl, rfl, rfl⟩ | ⟨rfl, rfl, rfl⟩ | ⟨rfl, rfl, rfl⟩ | ⟨rfl, rfl, rfl⟩ | ⟨rfl, rfl, rfl⟩ | ⟨rfl, rfl, rfl⟩
    | ⟨rfl, rfl, rfl⟩ | ⟨rfl, rfl, rfl⟩ | ⟨rfl, rfl, rfl⟩ | ⟨rfl, rfl, rfl⟩ | ⟨rfl, rfl, rfl⟩ | ⟨rfl, rfl, rfl⟩ := row
  · exact manage_unfit (imageBody_takes _) head function unfit
  · exact manage_unfit (imageBody_takes _) head function unfit
  · exact manage_unfit counters head function unfit
  · exact manage_unfit (imageBody_takes _) head function unfit
  · exact manage_unfit configWriteBody_takes head function unfit
  · exact manage_unfit publish head function unfit
  · exact manage_unfit accRead head function unfit
  · exact manage_unfit accSetup head function unfit
  · exact manage_unfit accClear head function unfit
  · exact manage_unfit sweepLoad head function unfit
  · exact manage_unfit (sweepBody_takes _) head function unfit
  · exact manage_unfit (sweepBody_takes _) head function unfit
  · exact manage_unfit (sweepBody_takes _) head function unfit
  · exact manage_unfit (sweepBody_takes _) head function unfit
  · exact manage_unfit mailboxTake head function unfit
  · exact manage_unfit bracketOpen head function unfit
  · exact manage_unfit bracketClose head function unfit
  · rw [exec, execRestart, State.restartDue_of_argument head unfit]
    exact manage_unfit (refusal_takes 0) head function unfit

theorem unknownCommand_refused {s : State} {t : Telegram} {rest : List Telegram} (head : s.atHead t rest)
    (unknown : t.function ∉ commandCodes) :
    exec .unknownCommand s = .next ((s.takeCommand rest).answer (bareResponse t.function 4)) := by
  refine congrArg Host.Outcome.next (manage_error (r := .unknown) head ?_ rfl)
  simpa [namesNoCommand] using unknown

/-! ### Table commands (R95, R100) -/

/-- TABLE_READ of a kind with a selector of another length. -/
theorem tableRead_unfit {s : State} {t : Telegram} {rest : List Telegram} {kind : TableKind} {n : Nat}
    {read : TableSet → List Byte → Option (List Byte)} {set k : Byte} {sel : List Byte} (head : s.atHead t rest)
    (function : t.function = codeTableRead) (payload : t.payload = set :: k :: sel) (hk : TableKind.ofByte k = some kind)
    (unfit : sel.length ≠ n) :
    (Host.Outcome.next (manage (hasKind codeTableRead 1 kind) (tableReadBody kind n read) s) :
        Host.Outcome State Fault Refusal)
      = .next ((s.takeCommand rest).answer (bareResponse codeTableRead 3)) := by
  rw [← function]
  refine congrArg Host.Outcome.next (manage_error (r := .badLength) head ?_ ?_)
  · rw [function]
    exact hasKind_of function (by rw [payload]; rfl) hk
  · rw [payload, tableReadBody]
    exact if_neg fun fits => unfit fits.2

theorem cutWrite_eq_none_iff {n : Nat} {dataBytes : List Byte → Nat} {rest : List Byte} :
    cutWrite n dataBytes rest = none ↔ (n ≤ rest.length → rest.length ≠ n + dataBytes (rest.take n)) := by
  simp [cutWrite]

/-- TABLE_WRITE of a kind that is not cut into a selector and its data. -/
theorem tableWrite_unfit {s : State} {t : Telegram} {rest : List Telegram} {kind : TableKind} {n : Nat}
    {dataBytes : List Byte → Nat} {write : TableSet → List Byte → List Byte → Option TableSet} {k : Byte} {body : List Byte}
    (head : s.atHead t rest) (function : t.function = codeTableWrite) (payload : t.payload = k :: body)
    (hk : TableKind.ofByte k = some kind) (unfit : n ≤ body.length → body.length ≠ n + dataBytes (body.take n)) :
    (Host.Outcome.next (manage (hasKind codeTableWrite 0 kind) (tableWriteBody kind n dataBytes write) s) :
        Host.Outcome State Fault Refusal)
      = .next ((s.takeCommand rest).answer (bareResponse codeTableWrite 3)) := by
  rw [← function]
  refine congrArg Host.Outcome.next (manage_error (r := .badLength) head ?_ ?_)
  · rw [function]
    exact hasKind_of function (by rw [payload]; rfl) hk
  · rw [payload, tableWriteBody]
    simp only [hk, if_true, cutWrite_eq_none_iff.mpr unfit]

/-- A counted write is cut by the count in its third byte. -/
theorem counted_unfit {size : Nat} {a b count : Byte} {data : List Byte} (unfit : data.length ≠ size * count.toNat) :
    3 ≤ (a :: b :: count :: data).length →
      (a :: b :: count :: data).length ≠ 3 + size * countOf ((a :: b :: count :: data).take 3) := by
  intro _ fits
  have whole : data.length + 3 = 3 + size * count.toNat := fits
  omega

/-- Settles O8: each row's body takes one length, by its table of commands and of kinds. -/
theorem unfitCommandsAreRefused : Obligations.UnfitCommandsAreRefused := by
  intro s t rest head
  refine ⟨fun c code n row => fixedLength_refused head row, unknownCommand_refused head, ?read, ?write, ?counted, ?short,
    ?noKindRead, ?noKindWrite⟩
  case read =>
    intro c kind n set sel row function payload unfit
    simp only [List.mem_cons, Prod.mk.injEq, List.not_mem_nil, or_false] at row
    obtain ⟨rfl, rfl, rfl⟩ | ⟨rfl, rfl, rfl⟩ | ⟨rfl, rfl, rfl⟩ | ⟨rfl, rfl, rfl⟩ | ⟨rfl, rfl, rfl⟩ | ⟨rfl, rfl, rfl⟩
      | ⟨rfl, rfl, rfl⟩ := row
    all_goals exact tableRead_unfit head function payload rfl unfit
  case write =>
    intro c kind n body row function payload unfit
    simp only [List.mem_cons, Prod.mk.injEq, List.not_mem_nil, or_false] at row
    obtain ⟨rfl, rfl, rfl⟩ | ⟨rfl, rfl, rfl⟩ | ⟨rfl, rfl, rfl⟩ | ⟨rfl, rfl, rfl⟩ := row
    all_goals exact tableWrite_unfit head function payload rfl fun _ => unfit
  case counted =>
    intro c kind size a b count data row function payload unfit
    simp only [List.mem_cons, Prod.mk.injEq, List.not_mem_nil, or_false] at row
    obtain ⟨rfl, rfl, rfl⟩ | ⟨rfl, rfl, rfl⟩ | ⟨rfl, rfl, rfl⟩ := row
    · exact tableWrite_unfit head function payload rfl (counted_unfit unfit)
    · refine tableWrite_unfit head function payload rfl ?_
      simpa using counted_unfit (a := a) (b := b) unfit
    · refine tableWrite_unfit head function payload rfl ?_
      simpa using counted_unfit (a := a) (b := b) unfit
  case short =>
    intro c kind sel row function payload short
    simp only [List.mem_cons, Prod.mk.injEq, List.not_mem_nil, or_false] at row
    obtain ⟨rfl, rfl⟩ | ⟨rfl, rfl⟩ | ⟨rfl, rfl⟩ := row
    all_goals exact tableWrite_unfit head function payload rfl fun long => absurd short (by omega)
  case noKindRead =>
    intro c row function noKind
    simp only [List.mem_cons, List.not_mem_nil, or_false] at row
    obtain rfl | rfl | rfl | rfl | rfl | rfl | rfl := row
    all_goals exact congrArg Host.Outcome.next (tableRead_noKind head function noKind)
  case noKindWrite =>
    intro c row function noKind
    simp only [List.mem_cons, List.not_mem_nil, or_false] at row
    obtain rfl | rfl | rfl | rfl | rfl | rfl | rfl := row
    all_goals exact congrArg Host.Outcome.next (tableWrite_noKind head function noKind)

end Sys2Proof.Machine
end

/-! ## What the reading commands answer -/

section
namespace Sys2Proof.Machine

/-! ### The images (section 12.4) -/

theorem flagByte_low_two (b a : Bool) :
    flagByte false false false false false false b a = (if a then 1 else 0) + (if b then 2 else 0) := by
  decide +revert

theorem flagByte_bit_seven (a : Bool) : flagByte a false false false false false false false = if a then 0x80 else 0 := by
  decide +revert

theorem flagByte_record (abandoned : Bool) :
    flagByte true abandoned false false false false false false = if abandoned then 0xC0 else 0x80 := by
  decide +revert

/-- An item outstanding as two bytes: its index and its set. -/
def itemBytes : Option (Nat × SetId) → List Byte
  | none => [0, 0]
  | some (index, set) => [BitVec.ofNat 8 index, set.code]

theorem itemBytes_eq (item : Option (Nat × SetId)) :
    bytesOf 1 ((item.map (·.1)).getD 0) ++ [(item.map (·.2.code)).getD 0] = itemBytes item := by
  cases item <;> simp [bytesOf_one, itemBytes]

/-- The six bytes of the transaction record. -/
theorem transactionImage_eq (record : Option Transaction) :
    transactionImage record = (match record with
      | none => [0, 0, 0, 0, 0, 0]
      | some r =>
        [if r.abandoned then 0xC0 else 0x80, r.owner.code, BitVec.ofNat 8 r.station.toNat, r.function]
          ++ itemBytes r.item) := by
  cases record with
  | none => rfl
  | some r => rw [transactionImage, flagByte_record, List.append_assoc, itemBytes_eq, stationByte]

theorem length_transactionImage (record : Option Transaction) : (transactionImage record).length = 6 := by
  cases record <;> simp [transactionImage, bytesOf]

theorem statusImage_eq (s : State) :
    statusImage s = [s.ts.state.code, s.ts.live.code] ++ twoBytes s.ts.publication.toNat ++ [s.flc.state.code]
      ++ transactionImage s.flc.record
      ++ [(if s.tp.change.isSome then 1 else 0) + (if s.fp.change.isSome then 2 else 0),
        if s.la.bracket.isSome then 1 else 0]
      ++ twoBytes (s.la.bracket.getD 0)
      ++ [s.la.holder.code, BitVec.ofNat 8 s.la.counter, s.dc.code, s.uc.code, BitVec.ofNat 8 s.tp.trq.length,
        BitVec.ofNat 8 s.tp.mcq.length, BitVec.ofNat 8 s.fsq.length, BitVec.ofNat 8 s.flc.frq.length,
        BitVec.ofNat 8 s.tp.tsq.length, BitVec.ofNat 8 s.mb.entries.length,
        (if s.am.level = .asserted then 1 else 0) + (if s.config.attentionEnable then 2 else 0),
        (s.ss.get 0).state.code, (s.ss.get 1).state.code, (s.ss.get 2).state.code, (s.ss.get 3).state.code] := by
  simp [statusImage, flagByte_low_two, bytesOf_one, bytesOf_two, Four.toList, Four.get]

theorem ConfigRecord.image_eq (c : ConfigRecord) :
    c.image = [c.trunkRate.code, c.fieldRate.code, BitVec.ofNat 8 c.gap, BitVec.ofNat 8 c.replyWindow,
        BitVec.ofNat 8 c.settleTime, BitVec.ofNat 8 c.tenureLimit,
        (if c.downstreamDrops then 1 else 0) + (if c.upstreamDrops then 2 else 0),
        if c.policy = .hold then 1 else 0] ++ twoBytes c.holdLimit
      ++ [(if c.attentionEnable then 0x80 else 0)
        + (match c.binding with
          | none => 0
          | some k => BitVec.ofNat 8 (k.val + 1))] := by
  have attention : flagByte c.attentionEnable false false false false false false false ||| bindingCode c.binding
      = (if c.attentionEnable then 0x80 else 0)
        + (match c.binding with
          | none => 0
          | some k => BitVec.ofNat 8 (k.val + 1)) := by
    cases c.binding with
    | none => cases c.attentionEnable <;> rfl
    | some k =>
      rw [bindingCode]
      generalize c.attentionEnable = enable
      decide +revert
  simp only [ConfigRecord.image, attention, flagByte_low_two, bytesOf_one, bytesOf_two, List.cons_append,
    List.nil_append]

/-- Settles O10: both commands answer an image and no more. -/
theorem statusAndConfigReadReturnImages : Obligations.StatusAndConfigReadReturnImages := by
  constructor
  · intro s t rest head function bare
    refine ⟨statusImage (s.takeCommand rest), congrArg _ (manage_imageBody statusImage head function bare), ?_, ?_⟩
    · simp [statusImage_eq, length_transactionImage, twoBytes]
    · rw [statusImage_eq, transactionImage_eq]
      rfl
  · intro s t rest head function bare
    have answered := manage_imageBody (fun s => s.config.image) head function bare
    rw [ConfigRecord.image_eq] at answered
    exact congrArg _ answered

/-! ### COUNTERS (R171, R172) -/

theorem Counters.image_eq (c : Counters) :
    c.image = ([.trunkMalformed, .trunkCorrupt, .trunkOverrun, .commandOverrun, .fieldCorrupt, .fieldNoReply, .fieldMismatch,
      .fieldUnsolicited, .voidAction, .mailboxLost, .withheld, .trunkPauseWaits] : List Counter).flatMap
        fun k => twoBytes (c.get k) := by
  simp only [Counters.image, bytesOf_two, List.flatMap_cons, List.flatMap_nil, List.append_assoc, List.append_nil,
    Counters.get]

theorem countersBody_eq (flags : Byte) (s : State) :
    countersBody [flags] s = if 1 < flags.toNat then .error .badArg
      else done s.counters.image { s with counters := if flags.toNat = 1 then .zero else s.counters } := by
  rw [countersBody, readFlag0_eq]
  by_cases reserved : 1 < flags.toNat
  · simp only [reserved, if_true]
  · by_cases clear : flags.toNat = 1
    · simp [clear]
    · simp [reserved, clear]

/-- Settles O11: the image is read before the clear of the same act. -/
theorem countersAreReadAndCleared : Obligations.CountersAreReadAndCleared := by
  intro s t rest flags head function payload
  obtain ⟨refused, ran⟩ := manage_code_of_ite head function payload (countersBody_eq ..)
  rw [Counters.image_eq] at ran
  refine ⟨fun flag => ⟨_, congrArg _ (ran (Nat.not_lt.mpr flag)), rfl, ?_, ?_⟩, fun reserved => congrArg _ (refused reserved)⟩
  · rintro rfl
    rfl
  · rintro rfl k
    cases k <;> rfl

/-! ### TABLE_READ (R100) -/

theorem SetId.ofByte_reads (b : Byte) : Reads (SetId.ofByte b) (2 ≤ b.toNat) (if b = 0 then .zero else .one) := by
  simp only [SetId.ofByte, ← toNat_eq_zero_iff]
  split
  next zero => simp [Reads, zero]
  next one => simp [Reads, one]
  next not_zero not_one =>
    simp only [imp_false] at not_zero not_one
    exact reads_none (by omega) _

theorem TableStore.eq_edit_iff (ts : TableStore) (i : SetId) : i = ts.edit ↔ i ≠ ts.live := by
  unfold TableStore.edit
  generalize ts.live = live
  cases i <;> cases live <;> decide

/-- A TABLE_READ of its own kind and length, by what its reader makes of the selector. -/
theorem tableRead_of_image {c : Instr} {s : State} {t : Telegram} {rest : List Telegram} {kind : TableKind} {n : Nat}
    {read : TableSet → List Byte → Option (List Byte)} {set k : Byte} {sel : List Byte}
    {image : Option (TableSet → List Byte)}
    (row : exec c s = .next (manage (hasKind codeTableRead 1 kind) (tableReadBody kind n read) s)) (head : s.atHead t rest)
    (function : t.function = codeTableRead) (payload : t.payload = set :: k :: sel) (hk : TableKind.ofByte k = some kind)
    (hn : sel.length = n) (reads : ∀ T, read T sel = image.map fun f => f T) :
    exec c s = .next ((s.takeCommand rest).answer (s.tableReadResponse set image)) := by
  rw [row, tableRead_row head function payload hk hn]
  refine congrArg (fun e => Host.Outcome.next ((s.takeCommand rest).answer e)) ?_
  unfold State.tableReadResponse
  by_cases unknown : 2 ≤ set.toNat
  · rw [(SetId.ofByte_reads set).1 unknown, if_pos unknown]
    rfl
  · rw [(SetId.ofByte_reads set).2 unknown, if_neg unknown]
    dsimp only
    refine ite_congr (congrArg (· ∧ _) (propext (TableStore.eq_edit_iff ..))) (fun _ => rfl) fun _ => ?_
    rw [reads]
    cases image <;> rfl

theorem Reads.eq_ite {α : Type} {x : Option α} {bad ok : Prop} [Decidable ok] {v : α} (h : Reads x bad v) (fits : ok ↔ ¬bad) :
    x = if ok then some v else none := by
  split
  · next fine => exact h.2 (fits.mp fine)
  · next fault => exact h.1 (not_not.mp (fits.not.mp fault))

theorem map_apply_ite {ok : Prop} [Decidable ok] (f : TableSet → List Byte) (T : TableSet) :
    ((if ok then some f else none).map fun f => f T) = if ok then some (f T) else none := by
  split <;> rfl

theorem Window.image_eq (w : Window) :
    w.image = [if w.enabled then 0x80 else 0] ++ twoBytes w.low ++ twoBytes w.high ++ twoBytes w.base := by
  rw [Window.image, flagByte_bit_seven, bytesOf_two, bytesOf_two, bytesOf_two]
  simp

theorem readWindow_eq (T : TableSet) (d w : Byte) :
    readWindow T [d, w] = if d.toNat ≤ 1 ∧ w.toNat ≤ 3 then
      some ((T.windows (if d = 0 then .downstream else .upstream)).get (Fin.ofNat 4 w.toNat)).image else none :=
  ((windowAt_reads d w).map _).eq_ite (by omega)

theorem readEntries_eq (T : TableSet) (hi lo c : Byte) :
    let start := 256 * hi.toNat + lo.toNat
    readEntries T [hi, lo, c] = if start ≤ 2047 ∧ 1 ≤ c.toNat ∧ c.toNat ≤ 100 ∧ start + c.toNat ≤ 2048 then
      some ((List.range c.toNat).flatMap fun i => twoBytes (T.entry (start + i)).code) else none := by
  intro start
  have run := (entriesAt_reads hi lo c).map fun x =>
    (Sparse.getRun entryDefault T.entries x.1 x.2).flatMap fun e => bytesOf 2 e.code
  simp only [Sparse.getRun_eq, List.flatMap_map, bytesOf_two, ← toNat_eq_zero_iff] at run
  rw [readEntries]
  simp only [Sparse.getRun_eq, List.flatMap_map, bytesOf_two]
  exact run.eq_ite (by omega)

theorem readTranslateBytes_eq (T : TableSet) (n start c : Byte) :
    readTranslateBytes T [n, start, c] =
      if n.toNat ≤ 3 ∧ 1 ≤ c.toNat ∧ c.toNat ≤ 128 ∧ start.toNat + c.toNat ≤ 256 then
        some ((List.range c.toNat).map fun i => T.translated n.toNat (BitVec.ofNat 8 (start.toNat + i))) else none := by
  have run := (translateAt_reads n start c).map fun x => Sparse.getRun translateDefault T.translate x.1 x.2
  simp only [← toNat_eq_zero_iff] at run
  rw [readTranslateBytes]
  refine (run.eq_ite (by omega)).trans (ite_congr rfl (fun fits => congrArg some ?_) fun _ => rfl)
  rw [Sparse.getRun_eq]
  refine List.map_congr_left fun i inside => ?_
  have inside := List.mem_range.mp inside
  rw [TableSet.translated, BitVec.toNat_ofNat, Nat.mod_eq_of_lt (by omega), Nat.add_assoc]

theorem delimitersImage_congr {f g : Nat → Bool} (same : ∀ v, v < 256 → f v = g v) :
    delimitersImage f = delimitersImage g := by
  refine List.map_congr_left fun j inside => ?_
  have inside := List.mem_range.mp inside
  unfold memberByte
  congr 1 <;> exact same _ (by omega)

theorem readDelimiterSet_eq (T : TableSet) (n : Byte) :
    readDelimiterSet T [n] = if n.toNat ≤ 7 then
      some (delimitersImage fun v => T.isDelimiter n.toNat (BitVec.ofNat 8 v)) else none := by
  refine (((delimiterAt_reads n).map _).eq_ite (by omega)).trans (ite_congr rfl (fun _ => congrArg some ?_) fun _ => rfl)
  refine delimitersImage_congr fun v small => ?_
  rw [TableSet.isDelimiter, BitVec.toNat_ofNat, Nat.mod_eq_of_lt small]

theorem readPatternBytes_eq (T : TableSet) (hi lo c : Byte) :
    let start := 256 * hi.toNat + lo.toNat
    readPatternBytes T [hi, lo, c] = if start ≤ 2047 ∧ 1 ≤ c.toNat ∧ c.toNat ≤ 128 ∧ start + c.toNat ≤ 2048 then
      some (T.patternRun ⟨start, c.toNat⟩) else none := by
  intro start
  have run := (patternAt_reads hi lo c).map fun x => Sparse.getRun patternDefault T.pattern x.1 x.2
  simp only [← toNat_eq_zero_iff] at run
  rw [readPatternBytes]
  exact run.eq_ite (by omega)

/-- Settles O17: each kind's reader, by the limits of its selector. -/
theorem tableReadsReturnImages : Obligations.TableReadsReturnImages := by
  intro s t rest set head function
  refine ⟨fun d w payload => ?window, fun hi lo c payload => ?entries, fun n payload => ?record,
    fun n start c payload => ?translate, fun n payload => ?delimiters, fun hi lo c payload => ?pattern,
    fun n payload => ?item⟩
  case window =>
    refine tableRead_of_image rfl head function payload rfl rfl fun T => ?_
    rw [readWindow_eq, map_apply_ite, Window.image_eq]
  case entries =>
    refine tableRead_of_image rfl head function payload rfl rfl fun T => ?_
    rw [readEntries_eq, map_apply_ite]
  case record => exact tableRead_of_image rfl head function payload rfl rfl fun T => rfl
  case translate =>
    refine tableRead_of_image rfl head function payload rfl rfl fun T => ?_
    rw [readTranslateBytes_eq, map_apply_ite]
  case delimiters =>
    refine tableRead_of_image rfl head function payload rfl rfl fun T => ?_
    rw [readDelimiterSet_eq, map_apply_ite]
  case pattern =>
    refine tableRead_of_image rfl head function payload rfl rfl fun T => ?_
    rw [readPatternBytes_eq, map_apply_ite]
  case item => exact tableRead_of_image rfl head function payload rfl rfl fun T => rfl

end Sys2Proof.Machine
end

/-! ## What the writing commands check and change -/

section
namespace Sys2Proof.Machine

/-! ### PUBLISH and the write of an action record (R53, R91, R92, R95) -/

/-- Settles O15: PUBLISH is refused outside EDITABLE, and flips the selector else. -/
theorem publishFlipsTheLiveSet : Obligations.PublishFlipsTheLiveSet := by
  intro s t rest head function bare
  refine ⟨fun busy => ?_, fun editable => ?_⟩
  · have body : publishBody [] (s.takeCommand rest) = .error .busy := if_pos busy
    exact congrArg _ (manage_code_error head function bare body)
  · have body : publishBody [] (s.takeCommand rest) =
        done (twoBytes (s.ts.publication + 1).toNat ++ [s.ts.live.other.code]) (s.takeCommand rest).publish := by
      rw [publishBody, bytesOf_two]
      exact if_neg (not_not.mpr editable)
    exact congrArg _ (manage_code_ok head function bare body)

theorem writeActionRecord_one (T : TableSet) (n : Byte) (image : List Byte) :
    writeActionRecord T [n] image =
      (recordOfImage image).map fun r => { T with records := Sparse.put recordDefault n.toNat r T.records } := by
  rw [writeActionRecord_eq]
  rfl

/-- Settles O22: the image is refused or accepted whole; accepted, it is written to its one record. -/
theorem actionRecordWriteReplacesWhole : Obligations.ActionRecordWriteReplacesWhole := by
  intro s t rest n image canonical head function payload whole T
  obtain ⟨-, records, -⟩ := TableSet.wf_iff.mp (canonical.table s.ts.edit)
  have row : exec .tableWriteActionRecord s = .next _ :=
    congrArg Host.Outcome.next (tableWrite_row (kind := .actionRecord) (n := 1) (dataBytes := fun _ => 35)
      (write := writeActionRecord) (sel := [n]) head function payload rfl rfl whole)
  rw [writeActionRecord_one] at row
  refine ⟨fun busy => ?_, fun editable refused => ?_, fun r editable accepted => ?_⟩
  · rw [row, if_pos busy]
    rfl
  · rw [row, if_neg (not_not.mpr editable), refused]
    rfl
  · rw [row, if_neg (not_not.mpr editable), accepted]
    exact ⟨_, rfl, rfl, Sparse.get_put records⟩

/-! ### The codes of the configuration record and of the sweep modes -/

theorem Rate.ofByte_eq_none_iff (b : Byte) : Rate.ofByte b = none ↔ 7 < b.toNat := by
  unfold Rate.ofByte
  split <;> simp_all
  omega

theorem Rate.code_of_ofByte {b : Byte} {r : Rate} (h : Rate.ofByte b = some r) : r.code = b := by
  unfold Rate.ofByte at h
  split at h <;> cases h <;> exact BitVec.eq_of_toNat_eq (Eq.symm ‹_›)

theorem SweepMode.ofByte_eq_none_iff (b : Byte) : SweepMode.ofByte b = none ↔ 3 < b.toNat := by
  unfold SweepMode.ofByte
  split <;> simp_all
  omega

theorem SweepMode.code_of_ofByte {b : Byte} {m : SweepMode} (h : SweepMode.ofByte b = some m) : m.code = b := by
  unfold SweepMode.ofByte at h
  split at h <;> cases h <;> exact BitVec.eq_of_toNat_eq (Eq.symm ‹_›)

theorem bindingOf_eq_none_iff (n : Nat) : bindingOf n = none ↔ 4 < n := by
  unfold bindingOf
  split <;> simp_all
  omega

theorem map_succ_of_bindingOf {n : Nat} {binding : Option SweepId} (h : bindingOf n = some binding) :
    binding.map (·.val + 1) = if n = 0 then none else some n := by
  unfold bindingOf at h
  split at h <;> cases h <;> rfl

/-! ### The configuration record (section 11.5, R174) -/

theorem extractLsb'_three (b : Byte) : (b.extractLsb' 0 3).toNat = b.toNat % 8 := by
  rw [BitVec.extractLsb'_toNat]
  rfl

/-- A field out of its range, or a reserved bit. -/
def ConfigBad (image : List Byte) : Prop :=
  7 < num1 image 0 ∨ 7 < num1 image 1 ∨ num1 image 2 < 11 ∨ fieldByte image 3 = 0 ∨ fieldByte image 5 = 0
    ∨ 64 < num1 image 5 ∨ 3 < num1 image 6 ∨ 1 < num1 image 7 ∨ num2 image 8 = 0 ∨ 1000 < num2 image 8
    ∨ (fieldByte image 10).extractLsb' 3 4 ≠ 0 ∨ 4 < num1 image 10 % 8

/-- The record that the bytes of an image spell. -/
structure ConfigRecord.Spelled (image : List Byte) (c : ConfigRecord) : Prop where
  trunkRate : c.trunkRate.code = fieldByte image 0
  fieldRate : c.fieldRate.code = fieldByte image 1
  gap : c.gap = num1 image 2
  replyWindow : c.replyWindow = num1 image 3
  settleTime : c.settleTime = num1 image 4
  tenureLimit : c.tenureLimit = num1 image 5
  downstreamDrops : c.downstreamDrops = (fieldByte image 6).getLsbD 0
  upstreamDrops : c.upstreamDrops = (fieldByte image 6).getLsbD 1
  policy : c.policy = .hold ↔ fieldByte image 7 = 1
  holdLimit : c.holdLimit = num2 image 8
  attentionEnable : c.attentionEnable = (fieldByte image 10).getLsbD 7
  binding : c.binding.map (·.val + 1) = if num1 image 10 % 8 = 0 then none else some (num1 image 10 % 8)

theorem ite_none_eq_none_iff {α : Type} (bad : Prop) [Decidable bad] (v : α) :
    (if bad then none else some v) = none ↔ bad := by
  by_cases bad <;> simp [*]

theorem ConfigRecord.ofImage_eq_none_iff {image : List Byte} (whole : image.length = 11) :
    ConfigRecord.ofImage image = none ↔ ConfigBad image := by
  have parts : ConfigRecord.ofImage image = none ↔ 7 < num1 image 0 ∨ 7 < num1 image 1 ∨ 4 < num1 image 10 % 8
      ∨ (num1 image 2 < 11 ∨ num1 image 3 = 0 ∨ num1 image 5 = 0 ∨ 64 < num1 image 5 ∨ 3 < num1 image 6
        ∨ 1 < num1 image 7 ∨ num2 image 8 = 0 ∨ 1000 < num2 image 8 ∨ (fieldByte image 10).extractLsb' 3 4 ≠ 0) := by
    unfold ConfigRecord.ofImage
    refine bind_eq_none_iff_or (Rate.ofByte_eq_none_iff _) fun _ => bind_eq_none_iff_or (Rate.ofByte_eq_none_iff _) fun _ =>
      bind_eq_none_iff_or ((bindingOf_eq_none_iff _).trans (by rw [extractLsb'_three])) fun _ => ?_
    rw [fieldNat_one (by omega), fieldNat_one (by omega), fieldNat_one (by omega), fieldNat_one (by omega),
      fieldNat_two (by omega)]
    exact ite_none_eq_none_iff _ _
  rw [parts, ConfigBad, ← toNat_eq_zero_iff, ← toNat_eq_zero_iff]
  exact iff_of_eq (by ac_rfl)

theorem ConfigRecord.spelled_of_ofImage {image : List Byte} (whole : image.length = 11) {c : ConfigRecord}
    (h : ConfigRecord.ofImage image = some c) : c.Spelled image := by
  simp only [ConfigRecord.ofImage, Option.bind_eq_bind, Option.bind_eq_some_iff] at h
  obtain ⟨trunkRate, trunk, fieldRate, line, binding, bound, h⟩ := h
  rw [extractLsb'_three] at bound
  have policy : (if fieldNat image 7 1 = 1 then MailboxPolicy.hold else .lose) = .hold ↔ fieldByte image 7 = 1 := by
    rw [fieldNat_one (by omega), ← BitVec.toNat_inj]
    split
    · next one => exact iff_of_true rfl one
    · next other => exact iff_of_false MailboxPolicy.noConfusion other
  split at h
  · cases h
  · cases h
    exact {
      trunkRate := Rate.code_of_ofByte trunk
      fieldRate := Rate.code_of_ofByte line
      gap := fieldNat_one (by omega)
      replyWindow := fieldNat_one (by omega)
      settleTime := fieldNat_one (by omega)
      tenureLimit := fieldNat_one (by omega)
      downstreamDrops := rfl
      upstreamDrops := rfl
      policy := policy
      holdLimit := fieldNat_two (by omega)
      attentionEnable := rfl
      binding := map_succ_of_bindingOf bound }

end Sys2Proof.Machine
end

/-! ## CONFIG_WRITE (R16, R17, R127, R173, R174) -/

section
namespace Sys2Proof.Machine

theorem configWriteBody_of_refused {image : List Byte} (whole : image.length = 11) (refused : ConfigRecord.ofImage image = none)
    (s : State) : configWriteBody image s = .error .badArg := by
  rw [configWriteBody, if_pos whole, refused]

theorem configWriteBody_of_accepted {image : List Byte} (whole : image.length = 11) {c : ConfigRecord}
    (accepted : ConfigRecord.ofImage image = some c) (s : State) :
    configWriteBody image s = .ok ⟨[], s.configure c, !s.leavesTrunkChange c && (s.configure c).tp.change.isSome⟩ := by
  rw [configWriteBody, if_pos whole, accepted]

/-- What a record makes of the part, the trunk side apart (R17, R127, R174). -/
def State.reconfigured (s : State) (c : ConfigRecord) : State :=
  { s with
    config := c
    la := { s.la with counter := min s.la.counter c.tenureLimit }
    fp := if c.fieldSettings = s.fp.line then { s.fp with change := none }
      else if s.flc.state = .idle ∧ s.fp.framer = .hunt then { s.fp with line := c.fieldSettings, change := none }
      else { s.fp with change := some c.fieldSettings } }

/-- The Trunk Port with the change of a record offered to it (R16). -/
def TrunkPort.offered (p : TrunkPort) (c : ConfigRecord) : TrunkPort :=
  { p with
    change := if c.trunkSettings = p.line then none else some ⟨c.trunkSettings, false⟩
    tsq := p.tsq.map fun e => { e with awaited := false }
    sending := p.sending.map fun x => { x with awaited := false } }

theorem State.configure_of_leaves {s : State} {c : ConfigRecord} (leaves : s.leavesTrunkChange c = true) :
    s.configure c = s.reconfigured c := by
  rw [State.configure_eq]
  simp only [leaves, if_true]
  rfl

theorem State.configure_of_offers {s : State} {c : ConfigRecord} (offers : ¬s.leavesTrunkChange c = true) :
    s.configure c = { s.reconfigured c with tp := s.tp.offered c } := by
  rw [State.configure_eq]
  simp only [offers]
  rfl

/-- A record that repeats the one that stands changes nothing but the trunk side, where its field settings are in use or
wait for the field line (R17, R173). -/
theorem State.reconfigured_of_repeat {s : State} {c : ConfigRecord} (same : c = s.config)
    (line : (s.fp.line = c.fieldSettings ∧ s.fp.change = none)
      ∨ (s.fp.line ≠ c.fieldSettings ∧ s.fp.change = some c.fieldSettings ∧ (s.flc.state ≠ .idle ∨ s.fp.framer ≠ .hunt)))
    (tenure : s.la.counter ≤ c.tenureLimit) : s.reconfigured c = s := by
  have port : (if c.fieldSettings = s.fp.line then { s.fp with change := none }
      else if s.flc.state = .idle ∧ s.fp.framer = .hunt then { s.fp with line := c.fieldSettings, change := none }
      else { s.fp with change := some c.fieldSettings }) = s.fp := by
    obtain ⟨inUse, none⟩ | ⟨differs, waits, busy⟩ := line
    · rw [if_pos inUse.symm, ← none]
    · rw [if_neg differs.symm, if_neg (by tauto), ← waits]
  rw [State.reconfigured, port, Nat.min_eq_left tenure, same]

/-- Nothing of the trunk is awaited, and its settings are in use: the offer changes nothing (R16, R173). -/
theorem TrunkPort.offered_of_settled {p : TrunkPort} {c : ConfigRecord} (inUse : p.line = c.trunkSettings)
    (noChange : p.change = none) (queued : ∀ e ∈ p.tsq, e.awaited = false)
    (sent : ∀ x, p.sending = some x → x.awaited = false) : p.offered c = p := by
  have tsq : p.tsq.map (fun e => { e with awaited := false }) = p.tsq := by
    refine (List.map_congr_left fun e he => ?_).trans p.tsq.map_id
    rw [← queued e he]
    rfl
  have sending : p.sending.map (fun x => { x with awaited := false }) = p.sending := by
    cases under : p.sending with
    | none => rfl
    | some x =>
      rw [Option.map_some, ← sent x under]
  rw [TrunkPort.offered, tsq, sending, if_pos inUse.symm, ← noChange]

/-- Settles O12: the record is refused for its own faults; else each block takes it, and the trunk change is offered or left
alone. -/
theorem configWriteIsCheckedWhole : Obligations.ConfigWriteIsCheckedWhole := by
  intro s t rest b0 b1 b2 b3 b4 b5 b6 b7 b8 b9 b10 head function payload hold bad
  have whole : [b0, b1, b2, b3, b4, b5, b6, b7, b8, b9, b10].length = 11 := rfl
  have refusedIff := ConfigRecord.ofImage_eq_none_iff whole
  refine ⟨fun fault => congrArg _ (manage_code_error (r := .badArg) head function payload
    (configWriteBody_of_refused whole (refusedIff.mpr fault) _)), fun fine => ?_⟩
  obtain ⟨c, accepted⟩ := Option.ne_none_iff_exists'.mp (fun refused => fine (refusedIff.mp refused))
  have spelled := ConfigRecord.spelled_of_ofImage whole accepted
  refine ⟨c, spelled.trunkRate, spelled.fieldRate, spelled.gap, spelled.replyWindow, spelled.settleTime, spelled.tenureLimit,
    spelled.downstreamDrops, spelled.upstreamDrops, spelled.policy, spelled.holdLimit, spelled.attentionEnable,
    spelled.binding, ?_⟩
  intro trunk line change leaves taken
  have trunkIs : c.trunkSettings = trunk := congrArg (LineSettings.mk c.trunkRate) spelled.gap
  have lineIs : c.fieldSettings = line := congrArg (LineSettings.mk c.fieldRate) spelled.gap
  have leavesIff : (s.takeCommand rest).leavesTrunkChange c = true ↔ leaves := by
    rw [State.leavesTrunkChange_iff, trunkIs]
    rfl
  have takenIs : (s.takeCommand rest).reconfigured c = taken := by
    rw [State.reconfigured, lineIs, spelled.tenureLimit]
    rfl
  have ran : exec .configWrite s = .next _ := congrArg Host.Outcome.next
    (manage_code_ok head function payload (configWriteBody_of_accepted whole accepted _))
  have offers : ¬leaves → exec .configWrite s = .next (State.answer
      { taken with tp := (s.takeCommand rest).tp.offered c } ⟨0x11, [0], ((s.takeCommand rest).tp.offered c).change.isSome⟩) := by
    intro offers
    rw [ran, State.configure_of_offers (leavesIff.not.mpr offers), takenIs, Bool.not_eq_true _ |>.mp (leavesIff.not.mpr offers)]
    rfl
  have kept : leaves → exec .configWrite s = .next (taken.answer (okResponse 0x11 [])) := by
    intro leaves
    rw [ran, State.configure_of_leaves (leavesIff.mpr leaves), takenIs, leavesIff.mpr leaves]
    rfl
  refine ⟨fun notLeft => ?_, kept, fun same settled line tenure => ?_⟩
  · rw [offers notLeft, TrunkPort.offered, trunkIs]
    rfl
  · have repeats : taken = s.takeCommand rest := by
      rw [← takenIs]
      exact State.reconfigured_of_repeat same (by rw [lineIs]; exact line) tenure
    by_cases left : leaves
    · rw [kept left, repeats]
    · obtain left' | ⟨inUse, noChange, queued, sent⟩ := settled
      · exact absurd left' left
      · have port : (s.takeCommand rest).tp.offered c = (s.takeCommand rest).tp :=
          TrunkPort.offered_of_settled (inUse.trans trunkIs.symm) noChange queued sent
        have none : (s.takeCommand rest).tp.change = none := noChange
        rw [offers left, port, repeats, none]
        rfl

end Sys2Proof.Machine
end

/-! ## The sweep commands (R147 to R152) -/

section
namespace Sys2Proof.Machine

/-! ### SWEEP_LOAD's parameters (R148) -/

/-- A parameter out of its range, in the nine bytes that follow the sweep number. -/
def ParamsBad (image : List Byte) : Prop :=
  3 < num1 image 0 ∨ num2 image 2 = 0 ∨ 256 < num2 image 2 ∨ 256 < num1 image 1 + num2 image 2 ∨ fieldByte image 4 = 0
    ∨ 15 < num1 image 5 ∨ (1 ≤ num2 image 6 ∧ num2 image 6 ≤ 9) ∨ 1 < num1 image 8

theorem SweepParams.ofImage_eq_none_iff {image : List Byte} (whole : image.length = 9) :
    SweepParams.ofImage image = none ↔ ParamsBad image := by
  have parts : SweepParams.ofImage image = none ↔ 3 < num1 image 0 ∨ 1 < num1 image 8
      ∨ (num2 image 2 = 0 ∨ 256 < num2 image 2 ∨ 256 < num1 image 1 + num2 image 2 ∨ num1 image 4 = 0 ∨ 15 < num1 image 5
        ∨ (1 ≤ num2 image 6 ∧ num2 image 6 ≤ 9)) := by
    unfold SweepParams.ofImage
    rw [readFlag0_eq]
    refine bind_eq_none_iff_or (SweepMode.ofByte_eq_none_iff _) fun _ =>
      bind_eq_none_iff_or (ite_none_eq_none_iff _ _) fun _ => ?_
    rw [fieldNat_one (by omega), fieldNat_one (by omega), fieldNat_one (by omega), fieldNat_two (by omega),
      fieldNat_two (by omega)]
    exact ite_none_eq_none_iff _ _
  rw [parts, ParamsBad, ← toNat_eq_zero_iff]
  exact iff_of_eq (by ac_rfl)

theorem toNat_beq_one (b : Byte) : (b.toNat == 1) = (b == 1) :=
  Bool.eq_iff_iff.mpr (by simp [← BitVec.toNat_inj])

/-- The parameters that an accepted image spells. -/
theorem SweepParams.eq_of_ofImage {image : List Byte} (whole : image.length = 9) {x : SweepParams}
    (h : SweepParams.ofImage image = some x) :
    x = ⟨x.mode, num1 image 1, num2 image 2, num1 image 4, num1 image 5, num2 image 6, fieldByte image 8 == 1⟩
      ∧ x.mode.code = fieldByte image 0 := by
  simp only [SweepParams.ofImage, Option.bind_eq_bind, Option.bind_eq_some_iff, readFlag0_eq] at h
  obtain ⟨mode, code, notify, flag, h⟩ := h
  split at flag
  · cases flag
  · cases flag
    rw [fieldNat_one (by omega), fieldNat_one (by omega), fieldNat_one (by omega), fieldNat_two (by omega),
      fieldNat_two (by omega)] at h
    split at h
    · cases h
    · cases h
      exact ⟨by rw [toNat_beq_one], SweepMode.code_of_ofByte code⟩

/-! ### The commands on one context (R147, R149 to R152) -/

theorem index4_of_bad {n : Byte} (bad : 3 < n.toNat) : index4 n = none := (index4_reads n).1 bad

theorem index4_of_good {n : Byte} (good : n.toNat ≤ 3) : index4 n = some (Fin.ofNat 4 n.toNat) :=
  (index4_reads n).2 (Nat.not_lt.mpr good)

theorem ofNat_index4 {n : Byte} (good : n.toNat ≤ 3) : BitVec.ofNat 8 (Fin.ofNat 4 n.toNat).val = n := by
  have index : (Fin.ofNat 4 n.toNat).val = n.toNat := Nat.mod_eq_of_lt (Nat.lt_succ_of_le good)
  rw [index, BitVec.ofNat_toNat, BitVec.setWidth_eq]

theorem sweepBody_of_bad {n : Byte} (bad : 3 < n.toNat) (act : SweepId → State → Except Result Done) (s : State) :
    sweepBody act [n] s = .error .badArg := by
  rw [sweepBody, index4_of_bad bad]

theorem sweepBody_of_good {n : Byte} (good : n.toNat ≤ 3) (act : SweepId → State → Except Result Done) (s : State) :
    sweepBody act [n] s = act (Fin.ofNat 4 n.toNat) s := by
  rw [sweepBody, index4_of_good good]

theorem Sweep.resume_eq (c : Sweep) :
    c.resume = { c with
      state := .running, retryTally := 0, silenceRun := 0
      cursor := if c.remaining = 0 then c.first else c.cursor
      remaining := if c.remaining = 0 then c.count else c.remaining } := by
  unfold Sweep.resume
  dsimp only
  split <;> rfl

/-- A halt keeps the position, and notifies as the parameters ask (R144, R145). -/
theorem Sweep.halt_eq (c : Sweep) (reason : EndReason) (station : Station) :
    c.halt reason station = { c with
      state := .halted, reason := reason, stopStation := station, rerun := false, stopPending := false
      notice := if c.notify then some ⟨reason, c.cursor, c.remaining, station, c.passes, c.notice.isSome⟩
        else c.notice } := by
  rw [Sweep.halt, Sweep.fillNotice_eq]
  rfl

/-- A sweep that is not RUNNING and not WAITING is stopped already (R151). -/
theorem Sweep.stop_of_stopped {c : Sweep} (stopped : c.state = .idle ∨ c.state = .halted) : c.stop = c := by
  unfold Sweep.stop
  obtain state | state := stopped
  · rw [state]
  · rw [state]

theorem Sweep.stop_of_waiting {c : Sweep} (waiting : c.state = .waiting) :
    c.stop = { c with state := .idle, periodTimer := none } := by
  unfold Sweep.stop
  rw [waiting]

/-- A RUNNING sweep goes on to its outstanding item's report, or halts at once (R151). -/
theorem Sweep.stop_of_running {c : Sweep} (running : c.state = .running) :
    c.stop = if c.outstanding = none then c.halt .stopped 63 else { c with stopPending := true } := by
  unfold Sweep.stop
  rw [running]
  cases c.outstanding <;> rfl

theorem flagByte_sweep (f e d c b a : Bool) :
    flagByte false false f e d c b a = (if a then 1 else 0) + (if b then 2 else 0) + (if c then 4 else 0)
      + (if d then 8 else 0) + (if e then 16 else 0) + (if f then 32 else 0) := by
  decide +revert

theorem flags_of_options (notice : Option SweepNotice) (outstanding : Option (Nat × SetId)) :
    ((notice.map (·.superseded)).getD false = notice.any (·.superseded))
      ∧ (if notice.isSome then (16 : Byte) else 0) = (if notice = none then 0 else 16)
      ∧ (if outstanding.isSome then (8 : Byte) else 0) = (if outstanding = none then 0 else 8) := by
  cases notice <;> cases outstanding <;> simp

theorem Sweep.image_eq (c : Sweep) :
    c.image = [c.state.code, c.mode.code, BitVec.ofNat 8 c.first] ++ twoBytes c.count ++ twoBytes c.cursor
      ++ twoBytes c.remaining
      ++ [BitVec.ofNat 8 c.retryLimit, BitVec.ofNat 8 c.retryTally, BitVec.ofNat 8 c.silenceLimit,
        BitVec.ofNat 8 c.silenceRun]
      ++ twoBytes c.period ++ twoBytes (c.periodTimer.getD 0)
      ++ [(if c.notify then 1 else 0) + (if c.rerun then 2 else 0) + (if c.stopPending then 4 else 0)
        + (if c.outstanding = none then 0 else 8) + (if c.notice = none then 0 else 16)
        + (if c.notice.any (·.superseded) then 32 else 0)]
      ++ itemBytes c.outstanding
      ++ [c.reason.code, BitVec.ofNat 8 c.stopStation.toNat] ++ twoBytes c.passes.toNat := by
  obtain ⟨superseded, noticed, held⟩ := flags_of_options c.notice c.outstanding
  rw [Sweep.image, flagByte_sweep, superseded, noticed, held, ← itemBytes_eq, stationByte]
  simp only [bytesOf_one, bytesOf_two, List.append_assoc, List.cons_append, List.nil_append]

/-- Settles O51: the number first, then each command by the state of the one context. -/
theorem sweepCommandsActOnOneContext : Obligations.SweepCommandsActOnOneContext := by
  intro s t rest n head answered changed c
  refine ⟨fun m f c1 c0 r q p1 p0 x function payload => ?load, fun payload bad => ?bad, fun payload good => ?good⟩
  case load =>
    intro count period bad
    have whole : [m, f, c1, c0, r, q, p1, p0, x].length = 9 := rfl
    have refusedIff := SweepParams.ofImage_eq_none_iff whole
    refine ⟨fun high => ?_, fun low running => ?_, fun low stopped fault => ?_, fun low stopped fine => ?_⟩
    · refine congrArg _ (manage_code_error (r := .badArg) head function payload ?_)
      rw [sweepLoadBody, index4_of_bad high]
    · refine congrArg _ (manage_code_error (r := .busy) head function payload ?_)
      rw [sweepLoadBody, index4_of_good low]
      exact if_pos running
    · refine congrArg _ (manage_code_error (r := .badArg) head function payload ?_)
      rw [sweepLoadBody, index4_of_good low]
      dsimp only
      rw [refusedIff.mpr fault]
      exact if_neg stopped
    · obtain ⟨params, accepted⟩ := Option.ne_none_iff_exists'.mp (fun refused => fine (refusedIff.mp refused))
      obtain ⟨spelled, mode⟩ := SweepParams.eq_of_ofImage whole accepted
      refine ⟨params.mode, mode, congrArg _ (manage_code_ok head function payload ?_)⟩
      rw [sweepLoadBody, index4_of_good low]
      dsimp only
      rw [accepted, spelled]
      exact if_neg stopped
  case bad =>
    refine ⟨fun function => ?_, fun function => ?_, fun function => ?_, fun function => ?_⟩
    all_goals exact congrArg _ (manage_code_error (r := .badArg) head function payload (sweepBody_of_bad bad _ _))
  case good =>
    have ran : ∀ {act : SweepId → State → Except Result Done} {u : State} {data : List Byte} {code : Byte},
        t.function = code → act (Fin.ofNat 4 n.toNat) (s.takeCommand rest) = done data u →
        (Host.Outcome.next (manage (hasCode code) (sweepBody act) s) : Host.Outcome State Fault Refusal)
          = .next (u.answer (okResponse code data)) := fun function done =>
      congrArg _ (manage_code_ok head function payload ((sweepBody_of_good good _ _).trans done))
    have stops : ∀ {x : Sweep}, t.function = 0x43 → c.stop = x → exec .sweepStop s = changed x 0x43 := by
      rintro x function rfl
      exact ran (act := stopSweep) function rfl
    refine ⟨fun function => ⟨fun running => ?_, fun stopped => ran function (if_neg stopped)⟩,
      fun function => ⟨fun kept => ?_, fun halted => ?_⟩,
      fun function => ⟨fun stopped => ?_, fun waiting => ?_, fun running held => ?_, fun running free => ?_⟩,
      fun function => ?_⟩
    · exact congrArg _ (manage_code_error (r := .busy) head function payload
        ((sweepBody_of_good good _ _).trans (if_pos running)))
    · exact congrArg _ (manage_code_error (r := .badState) head function payload
        ((sweepBody_of_good good _ _).trans (if_neg kept)))
    · have resumed := ran (act := resumeSweep) function (if_pos halted)
      rw [Sweep.resume_eq] at resumed
      exact resumed
    · have same : { s.takeCommand rest with ss := s.ss.set (Fin.ofNat 4 n.toNat) c } = s.takeCommand rest := by
        rw [Four.set_get]
        rfl
      rw [stops function (Sweep.stop_of_stopped stopped)]
      exact congrArg (fun u : State => Host.Outcome.next (u.answer _)) same
    · exact stops function (Sweep.stop_of_waiting waiting)
    · exact stops function ((Sweep.stop_of_running running).trans (if_neg held))
    · exact stops function ((Sweep.stop_of_running running).trans ((if_pos free).trans (Sweep.halt_eq ..)))
    · have read := ran (act := readSweep) function rfl
      rw [Sweep.image_eq, bytesOf_one, ofNat_index4 good] at read
      exact read

end Sys2Proof.Machine
end

/-! ## The Trunk Port's events (R2 to R17) -/

section
namespace Sys2Proof.Machine

/-! ### TRUNK_TELEGRAM_END and the gap limit (R4, R5, R9, R11) -/

theorem exec_trunkTelegramEnd {s : State} {chars : List Rx} {f : Framer} {e : Ended}
    (taken : s.tp.framer.takeAll chars = (f, [e])) :
    exec (.trunkTelegramEnd chars) s =
      .next (sortTrunk { s with tp := { s.tp with framer := f } } e).serviceTrunk := by
  rw [exec, execTrunkTelegramEnd, taken]
  rfl

/-- The station of an address is its low six bits. -/
theorem stationOf_eq_iff (address : Byte) (station : Station) :
    stationOf address = station ↔ address.toNat % 64 = station.toNat := by
  rw [← BitVec.toNat_inj, stationOf, BitVec.extractLsb'_toNat]
  rfl

theorem State.setMcq_of_entered (s : State) (t : Telegram) :
    s.setMcq (s.tp.mcq ++ [t]) = { s with tp := { s.tp with
      mcq := s.tp.mcq ++ [t], hold := holdLevel s.tp.trq.length (s.tp.mcq.length + 1) s.tp.hold } } := by
  simp [State.setMcq, TrunkPort.compareHold]

theorem State.setTrq_of_entered (s : State) (t : Telegram) :
    s.setTrq (s.tp.trq ++ [t]) = { s with tp := { s.tp with
      trq := s.tp.trq ++ [t], hold := holdLevel (s.tp.trq.length + 1) s.tp.mcq.length s.tp.hold } } := by
  simp [State.setTrq, TrunkPort.compareHold]

/-- Settles O28: the one ended telegram goes by its flags, its station and the room it finds. -/
theorem trunkTelegramsAreSorted : Obligations.TrunkTelegramsAreSorted := by
  intro s chars f e taken s1 holds
  rw [exec_trunkTelegramEnd taken]
  refine ⟨?_, ?_, ?_⟩
  · rintro rfl
    rfl
  · rintro rfl
    rfl
  · rintro t rfl flagged mine
    have flags : t.replyFlag = true ∨ t.attentionFlag = true ↔ flagged := Iff.rfl
    have station : t.station = s.tp.ownAddress ∧ s.tp.ownAddress ≠ broadcastStation ↔ mine :=
      and_congr_left' (stationOf_eq_iff _ _)
    rw [sortTrunk]
    refine ⟨fun bad => ?_, fun good isMine room => ?_, fun good isMine full => ?_, fun good other room => ?_,
      fun good other full => ?_⟩
    · rw [if_pos (flags.mpr bad)]
    · rw [if_neg (flags.not.mpr good), if_pos (by exact station.mpr isMine), if_pos (by exact room),
        State.setMcq_of_entered]
      rfl
    · rw [if_neg (flags.not.mpr good), if_pos (by exact station.mpr isMine), if_neg (by exact Nat.not_lt.mpr full)]
    · rw [if_neg (flags.not.mpr good), if_neg (by exact station.not.mpr other), if_pos (by exact room),
        State.setTrq_of_entered]
      rfl
    · rw [if_neg (flags.not.mpr good), if_neg (by exact station.not.mpr other), if_neg (by exact Nat.not_lt.mpr full)]

theorem fieldEnded_of_receiving {s : State} (receiving : s.flc.state = .receiving) (e : Ended) :
    fieldEnded s e = s.judgeReply e := if_pos receiving

/-- Outside the reply phase a good telegram is counted and a bad one discarded (R7). -/
theorem fieldEnded_of_outside {s : State} (outside : s.flc.state ≠ .receiving) (e : Ended) :
    fieldEnded s e = match e with
      | .good _ => s.count .fieldUnsolicited
      | _ => s := if_neg outside

/-- Settles O29: silence ends a telegram that is under way as malformed, and nothing else. -/
theorem gapLimitAbandonsATelegram : Obligations.GapLimitAbandonsATelegram := by
  intro s
  refine ⟨fun underWay => ?_, fun underWay receiving => ?_, fun underWay outside => ?_, fun hunt => ?_, fun hunt => ?_⟩
  · rw [exec, execGapLimitExpiry, trunkGap, if_neg underWay]
    rfl
  · rw [exec, execGapLimitExpiry, fieldGap, if_neg underWay, fieldEnded_of_receiving (by exact receiving)]
    rfl
  · rw [exec, execGapLimitExpiry, fieldGap, if_neg underWay, fieldEnded_of_outside (by exact outside)]
  · rw [exec, execGapLimitExpiry, trunkGap, if_pos hunt]
  · rw [exec, execGapLimitExpiry, fieldGap, if_pos hunt]

/-! ### Pause, the transmitter and a line change (R12, R13, R16) -/

/-- Who waits is not read off the Trunk Port. -/
theorem State.firstWaiting_withTp (s : State) (p : TrunkPort) : ({ s with tp := p } : State).firstWaiting = s.firstWaiting :=
  State.firstWaiting_congr rfl rfl rfl rfl rfl fun _ => rfl

/-- The release of pause while nobody waits: the line change that is due, and the start of the head. -/
theorem exec_trunkPauseRelease {s : State} (noneWaits : s.firstWaiting = none) :
    exec .trunkPauseRelease s =
      .next (State.takeTrunkChange { s with tp := { s.tp with pause := false } }).startHead :=
  congrArg Host.Outcome.next (State.serviceTrunk_of_noneWaiting ((s.firstWaiting_withTp _).trans noneWaits))

/-- The end of a telegram on the trunk while nobody waits. -/
theorem exec_trunkTelegramSent {s : State} {x : TrunkSend} (sending : s.tp.sending = some x)
    (noneWaits : s.firstWaiting = none) :
    exec .trunkTelegramSent s = .next (State.takeTrunkChange { s with tp := s.tp.endSending x }).startHead := by
  rw [exec, execTrunkTelegramSent, sending]
  exact congrArg Host.Outcome.next (State.serviceTrunk_of_noneWaiting ((s.firstWaiting_withTp _).trans noneWaits))

theorem TrunkPort.endSending_of_noChange {p : TrunkPort} (noChange : p.change = none) (x : TrunkSend) :
    p.endSending x = { p with sending := none } := by
  rw [TrunkPort.endSending, noChange, Option.map_none, ite_self, ← noChange]

/-- Settles O30: nothing waits, so pause and the transmitter alone say what the head does. -/
theorem pauseAndTheTransmitter : Obligations.PauseAndTheTransmitter := by
  refine ⟨fun _ => rfl, ?_⟩
  intro s noneWaits start
  refine ⟨fun e rest idle noChange head => ?_, fun stays => ?_, fun x sending noChange => ?_⟩
  · rw [exec_trunkPauseRelease noneWaits, State.takeTrunkChange_of_none (by exact noChange)]
    exact congrArg _ (State.startHead_of_free ((s.firstWaiting_withTp _).trans noneWaits)
      idle head (TrunkPort.blocked_of_noChange noChange) rfl)
  · rw [exec_trunkPauseRelease noneWaits]
    obtain busy | ⟨empty, noChange⟩ := stays
    · rw [State.takeTrunkChange_of_sending (by exact busy), State.startHead_of_sending (by exact busy)]
    · rw [State.takeTrunkChange_of_none (by exact noChange), State.startHead_of_empty (by exact empty)]
  · rw [exec_trunkTelegramSent sending noneWaits, TrunkPort.endSending_of_noChange noChange,
      State.takeTrunkChange_of_none (by exact noChange)]
    have unblocked : TrunkPort.blocked { s.tp with sending := none } = false := TrunkPort.blocked_of_noChange noChange
    refine ⟨fun empty => ?_, fun e rest head free => ?_, fun some paused counted => ?_, fun some paused uncounted => ?_⟩
    · exact congrArg _ (State.startHead_of_empty empty)
    · exact congrArg _ (State.startHead_of_free ((s.firstWaiting_withTp _).trans noneWaits)
        rfl head unblocked free)
    · exact congrArg _ (State.startHead_of_counted paused counted)
    · exact congrArg _ (State.startHead_of_uncounted rfl some unblocked paused uncounted)

/-- A telegram awaited by a line change has been sent: the change knows it (R16). -/
theorem TrunkPort.endSending_of_awaited {p : TrunkPort} {x : TrunkSend} {c : TrunkChange} (awaited : x.awaited = true)
    (waits : p.change = some c) : p.endSending x = { p with sending := none, change := some ⟨c.settings, true⟩ } := by
  rw [TrunkPort.endSending, if_pos awaited, waits]
  rfl

theorem State.takeTrunkChange_of_due {s : State} {l : LineSettings} (waits : s.tp.change = some ⟨l, true⟩)
    (hunt : s.tp.framer = .hunt) (idle : s.tp.sending = none) :
    s.takeTrunkChange = { s with tp := { s.tp with line := l, change := none } } := by
  rw [State.takeTrunkChange, waits]
  exact if_pos ⟨rfl, hunt, idle⟩

theorem State.takeTrunkChange_of_underWay {s : State} (underWay : s.tp.framer ≠ .hunt) : s.takeTrunkChange = s := by
  unfold State.takeTrunkChange
  split
  · exact if_neg fun due => underWay due.2.1
  · rfl

/-- Settles O31: the sent response makes the change due; with the framer in HUNT it takes effect before the head starts, else
it blocks the head. -/
theorem trunkLineChangeFollowsItsResponse : Obligations.TrunkLineChangeFollowsItsResponse := by
  intro s x c sending awaited waits noneWaits
  rw [exec_trunkTelegramSent sending noneWaits, TrunkPort.endSending_of_awaited awaited waits]
  refine ⟨fun hunt empty => ?_, fun e rest hunt head free => ?_, fun underWay => ?_⟩
  · rw [State.takeTrunkChange_of_due rfl (by exact hunt) rfl]
    exact congrArg _ (State.startHead_of_empty empty)
  · rw [State.takeTrunkChange_of_due rfl (by exact hunt) rfl]
    exact congrArg _ (State.startHead_of_free ((s.firstWaiting_withTp _).trans noneWaits) rfl head (TrunkPort.blocked_of_noChange rfl) free)
  · rw [State.takeTrunkChange_of_underWay (by exact underWay)]
    exact congrArg _ (State.startHead_of_blocked rfl)

end Sys2Proof.Machine
end

/-! ## The slot that a start frees (R12, R15) -/

section
namespace Sys2Proof.Machine

/-! ### The first in the arbiter's order -/

/-- The first hit of a search stands at some index, with no hit before it. -/
theorem findSome?_eq_some_iff_index {α β : Type} (f : α → Option β) (order : List α) (p : α) (e : β) (distinct : order.Nodup) :
    order.findSome? (fun q => (f q).map fun b => (q, b)) = some (p, e) ↔
      f p = some e ∧ ∃ i : Nat, order[i]? = some p ∧ ∀ j : Nat, j < i → ∀ q, order[j]? = some q → f q = none := by
  rw [List.findSome?_eq_some_iff]
  simp only [Option.map_eq_some_iff, Option.map_eq_none_iff, Prod.mk.injEq]
  constructor
  · rintro ⟨before, q, after, rfl, ⟨b, hit, rfl, rfl⟩, none⟩
    refine ⟨hit, before.length, by simp, fun j small x at_j => none x ?_⟩
    rw [List.getElem?_append_left small] at at_j
    exact List.mem_of_getElem? at_j
  · rintro ⟨hit, i, at_i, none⟩
    obtain ⟨inside, rfl⟩ := List.getElem?_eq_some_iff.mp at_i
    refine ⟨order.take i, order[i], order.drop (i + 1), ?_, ⟨e, hit, rfl, rfl⟩, fun x hx => ?_⟩
    · rw [List.getElem_cons_drop, List.take_append_drop]
    · obtain ⟨j, small, rfl⟩ := List.mem_take_iff_getElem.mp hx
      exact none j (by omega) _ (List.getElem?_eq_getElem _)

/-! ### What the arbiter gives -/

/-- A classifier that waited with its last output ends its unit as the output is admitted (R19, R24). -/
theorem State.goOn_of_last {s : State} {d : Direction} {u : UnitOfWork} {o : Output} (stalled : s.classifier d = .stalled u)
    (last : u.outputs = [o]) : s.goOn d = (s.setClassifier d .idle).checkDrain := by
  rw [State.goOn, stalled]
  dsimp only
  rw [State.resume, last, List.tail_cons, deliver, State.endUnit]
  cases d <;> rfl

/-- The events that start the head of a full TSQ on an idle trunk, before the start. -/
theorem exec_of_start {s : State} {c : Instr}
    (event : (c = .trunkTelegramSent ∧ s.tp.sending ≠ none ∧ s.tp.pause = false) ∨ (c = .trunkPauseRelease ∧ s.tp.sending = none))
    (noChange : s.tp.change = none) :
    exec c s = .next (State.serviceTrunk { s with tp := { s.tp with sending := none, pause := false } }) := by
  obtain ⟨rfl, busy, free⟩ | ⟨rfl, idle⟩ := event
  · obtain ⟨x, sending⟩ := Option.ne_none_iff_exists'.mp busy
    rw [exec, execTrunkTelegramSent, sending]
    dsimp only
    rw [TrunkPort.endSending_of_noChange noChange, ← free]
  · rw [exec, execTrunkPauseRelease, ← idle]

/-- Settles O32: a start frees the one slot of a full TSQ, and the first that waits fills it. -/
theorem freedSlotGoesToTheFirstWaiting : Obligations.FreedSlotGoesToTheFirstWaiting := by
  refine ⟨fun s => ⟨fun n slot => ?_, fun pending => ?_, fun k n slot => ?_⟩, fun s p e => ?_, ?freed, fun s full busy => ?_⟩
  · rw [State.waitsWith, slot, Option.map_some, bracketExpiredNotice, bytesOf_one, bytesOf_two]
    rfl
  · rw [State.waitsWith, if_pos pending, attentionNotice, bytesOf_one]
    rfl
  · rw [State.waitsWith, slot, Option.map_some, sweepEndNotice, bytesOf_one, bytesOf_two, bytesOf_two, bytesOf_two, stationByte]
    rfl
  · exact findSome?_eq_some_iff_index s.waitsWith producerOrder p e (by decide)
  case freed =>
    intro s c h e rest p event noChange head full first started
    have given : ∀ v : State, (State.giveSlot { s with tp := { s.tp with
          sending := some ⟨s.tp.trunkBytes h, h.awaited⟩, tsq := rest, headCounted := false, pause := false } } p e) = v →
        16 ≤ v.tp.tsq.length → exec c s = .next v := fun v hv long => by
      rw [exec_of_start event noChange]
      exact congrArg _ (State.serviceTrunk_of_freed rfl (TrunkPort.blocked_of_noChange noChange) rfl head full
        ((s.firstWaiting_withTp _).trans first) hv long)
    have long : 16 ≤ started.tp.tsq.length := by simp [started, full]
    refine ⟨?_, ?_, ?_, ?_, ?_, ?_⟩
    · rintro rfl
      exact given _ rfl long
    · rintro rfl
      exact given _ rfl long
    · rintro rfl
      exact given _ rfl long
    · rintro k rfl
      exact given _ rfl long
    · rintro u rfl stalled last
      refine given _ (State.goOn_of_last (d := .upstream) stalled last) ?_
      rw [State.checkDrain_tp]
      exact long
    · rintro u rfl stalled last
      refine given _ (State.goOn_of_last (d := .downstream) stalled last) ?_
      rw [State.checkDrain_tp]
      exact long
  · rw [exec, execTrunkPauseRelease, State.serviceTrunk_of_full (by exact full),
      State.takeTrunkChange_of_sending (by exact busy), State.startHead_of_sending (by exact busy)]

end Sys2Proof.Machine
end

/-! ## Telegrams on a line (R2 to R7) -/

section
namespace Sys2Proof.Machine

/-! ### The check (R3) -/

theorem crcShift_of_lt {n : Nat} (small : n < 2 ^ 15) : crcShift (BitVec.ofNat 16 n) = BitVec.ofNat 16 (2 * n) := by
  have top : (BitVec.ofNat 16 n).getLsbD 15 = false := by
    rw [BitVec.getLsbD_ofNat, Nat.testBit_lt_two_pow small, Bool.and_false]
  rw [crcShift, if_neg (by rw [top]; exact Bool.false_ne_true)]
  apply BitVec.eq_of_toNat_eq
  simp [Nat.shiftLeft_eq, Nat.mul_comm]

/-- A register whose upper byte is 0 is shifted out whole by one covered byte that keeps it so. -/
theorem crcByte_of_lower {r : BitVec 16} {b lower : Byte} (left : r ^^^ (b ++ 0#8) = BitVec.ofNat 16 lower.toNat) :
    crcByte r b = BitVec.ofNat 16 (256 * lower.toNat) := by
  have small := lower.isLt
  rw [crcByte, left, crcShift_of_lt (by omega), crcShift_of_lt (by omega), crcShift_of_lt (by omega),
    crcShift_of_lt (by omega), crcShift_of_lt (by omega), crcShift_of_lt (by omega), crcShift_of_lt (by omega),
    crcShift_of_lt (by omega)]
  congr 1
  ring

theorem upperByte_append_lowerByte (r : BitVec 16) : upperByte r ++ lowerByte r = r := by
  apply BitVec.eq_of_toNat_eq
  rw [toNat_append_byte, upperByte, lowerByte, BitVec.extractLsb'_toNat, BitVec.extractLsb'_toNat, Nat.shiftRight_eq_div_pow,
    Nat.shiftRight_zero]
  omega

theorem xor_upperByte (r : BitVec 16) : r ^^^ (upperByte r ++ 0#8) = BitVec.ofNat 16 (lowerByte r).toNat := by
  have low : upperByte r ++ lowerByte r ^^^ (upperByte r ++ 0#8) = 0#8 ++ lowerByte r := by
    rw [BitVec.xor_append, BitVec.xor_self, BitVec.xor_zero]
  rw [upperByte_append_lowerByte] at low
  rw [low]
  apply BitVec.eq_of_toNat_eq
  have small := (lowerByte r).isLt
  rw [toNat_append_byte, BitVec.toNat_ofNat, BitVec.toNat_ofNat]
  omega

/-- The register's own two bytes clear it: the first leaves its lower byte, the second nothing. -/
theorem crcByte_own_bytes (r : BitVec 16) : crcByte (crcByte r (upperByte r)) (lowerByte r) = 0 := by
  rw [crcByte_of_lower (xor_upperByte r)]
  have cleared : BitVec.ofNat 16 (256 * (lowerByte r).toNat) ^^^ (lowerByte r ++ 0#8) = BitVec.ofNat 16 (0 : Byte).toNat := by
    have shifted : BitVec.ofNat 16 (256 * (lowerByte r).toNat) = lowerByte r ++ 0#8 := by
      apply BitVec.eq_of_toNat_eq
      have small := (lowerByte r).isLt
      rw [toNat_append_byte, BitVec.toNat_ofNat, BitVec.toNat_ofNat]
      omega
    rw [shifted, BitVec.xor_self]
    rfl
  rw [crcByte_of_lower cleared]
  rfl

/-- Settles O26: one run of the register, and the law of its own bytes. -/
theorem checkIsTheStatedCode : Obligations.CheckIsTheStatedCode := by
  refine ⟨by decide +kernel, fun covered => ?_⟩
  rw [check, List.foldl_append]
  exact crcByte_own_bytes _

/-! ### The framer (R4) -/

theorem Framer.takeAll_append (f : Framer) (xs ys : List Rx) :
    f.takeAll (xs ++ ys) =
      (((f.takeAll xs).1.takeAll ys).1, (f.takeAll xs).2 ++ ((f.takeAll xs).1.takeAll ys).2) := by
  induction xs generalizing f with
  | nil => rfl
  | cons x xs ih => rw [List.cons_append, takeAll, takeAll, ih, List.append_assoc]

/-- A character that ends no telegram. -/
theorem Framer.takeAll_cons {f g : Framer} {c : Rx} (taken : f.take c = (g, none)) (cs : List Rx) :
    f.takeAll (c :: cs) = g.takeAll cs := by
  rw [takeAll, taken]
  rfl

/-- The framer at the start of the `n` payload bytes of a telegram, whose length byte it has taken (R4). -/
def Framer.atPayload (address function length : Byte) : Framer :=
  if length = 0 then .check address function length [] none else .payload address function length []

/-- The rest of a payload is taken up to its last byte. -/
theorem Framer.takeAll_payload (address function length : Byte) (rest taken : List Byte) (more : rest ≠ [])
    (fits : taken.length + rest.length = length.toNat) :
    (Framer.payload address function length taken).takeAll (rest.map Rx.byte)
      = (.check address function length (taken ++ rest) none, []) := by
  induction rest generalizing taken with
  | nil => exact absurd rfl more
  | cons b rest ih =>
    rw [List.length_cons] at fits
    rw [List.map_cons]
    cases rest with
    | nil =>
      rw [takeAll_cons (g := .check address function length (taken ++ [b]) none)]
      · rfl
      · rw [take, if_neg (by simp at fits ⊢; omega)]
    | cons b' rest =>
      rw [takeAll_cons (g := .payload address function length (taken ++ [b]))]
      · rw [ih _ (List.cons_ne_nil _ _) (by simp at fits ⊢; omega), List.append_assoc, List.singleton_append]
      · rw [take, if_pos (by simp at fits ⊢; omega)]

/-- A telegram with any two check bytes, taken in HUNT, ends in one judgement of its check. -/
theorem Framer.takeAll_line (address function : Byte) {payload : List Byte} (short : payload.length ≤ 240)
    (upper lower : Byte) :
    Framer.hunt.takeAll ((openingByte :: coveredBytes address function payload ++ [upper, lower]).map Rx.byte)
      = (.hunt, [judgeCheck address function (BitVec.ofNat 8 payload.length) payload upper lower]) := by
  have length : (BitVec.ofNat 8 payload.length).toNat = payload.length := by
    rw [BitVec.toNat_ofNat, Nat.mod_eq_of_lt (by omega)]
  have atLength : (Framer.length address function).take (.byte (BitVec.ofNat 8 payload.length))
      = (Framer.atPayload address function (BitVec.ofNat 8 payload.length), none) := by
    rw [take, if_neg (by omega), atPayload]
    split <;> rfl
  have body : (Framer.atPayload address function (BitVec.ofNat 8 payload.length)).takeAll (payload.map Rx.byte)
      = (.check address function (BitVec.ofNat 8 payload.length) payload none, []) := by
    by_cases empty : payload = []
    · subst empty
      rfl
    · rw [atPayload, if_neg (by rw [← toNat_eq_zero_iff, length]; exact List.length_eq_zero_iff.not.mpr empty)]
      exact takeAll_payload address function _ payload [] empty (by simp [length])
  simp only [coveredBytes, List.cons_append, List.map_cons, List.map_append]
  rw [takeAll_cons (g := .address) (by decide), takeAll_cons (g := .function address) rfl,
    takeAll_cons (g := .length address function) rfl, takeAll_cons atLength, takeAll_append, body]
  rfl

/-- Settles O25: the telegram comes back whole, and its check alone says how it ends. -/
theorem framerTakesWhatATransmitterSends : Obligations.FramerTakesWhatATransmitterSends := by
  intro address function payload short
  constructor
  · rw [lineChars, lineBytes]
    refine (Framer.takeAll_line address function short _ _).trans ?_
    rw [judgeCheck, upperByte_append_lowerByte]
    exact congrArg (fun e => (Framer.hunt, [e])) (if_pos rfl)
  · intro upper lower wrong
    rw [Framer.takeAll_line address function short upper lower, judgeCheck]
    exact congrArg (fun e => (Framer.hunt, [e])) (if_neg wrong)

/-- Settles O27: the rows of the framer's table, and the opening byte by the line and the controller's state. -/
theorem framersBeginAndAbandonTelegrams : Obligations.FramersBeginAndAbandonTelegrams := by
  refine ⟨fun f underWay => ?_, fun a f b long => if_pos long, rfl, fun b other => ?_, by decide, fun s => ?_⟩
  · cases f with
    | hunt => exact absurd rfl underWay
    | check a f n taken upper => cases upper <;> rfl
    | _ => rfl
  · exact if_neg other
  · refine ⟨fun hunt => ?_, fun hunt outside released => ?_, fun hunt awaiting => ?_, fun hunt outside released => ?_,
      fun outside driven => ⟨?_, ?_⟩⟩
    · exact if_pos hunt
    · exact if_pos ⟨hunt, outside, released⟩
    · rw [exec, execOpeningByteArrives, if_pos hunt, if_pos awaiting]
    · rw [exec, execOpeningByteArrives, if_pos hunt, if_neg outside, if_pos released]
    · have kept : ¬s.fp.driverEnable = false := by simp [driven]
      rw [exec, execOpeningByteArrives, if_neg outside, if_neg kept, ite_self]
    · exact if_neg fun free => Bool.noConfusion (driven.symm.trans free.2.2)

end Sys2Proof.Machine
end

/-! ## Dispatch and the stages (R26 to R50) -/

section
namespace Sys2Proof.Machine

/-! ### The search of the windows (R26, R27, R30) -/

theorem Window.covers_iff (w : Window) (key : Nat) : w.covers key = true ↔ w.enabled = true ∧ w.low ≤ key ∧ key ≤ w.high := by
  simp [Window.covers, and_assoc]

/-- The first window that covers the key gives its entry. -/
theorem searchWindows_of_first {ws : List Window} {key i : Nat} (inside : i < ws.length) (covers : ws[i].covers key = true)
    (first : ∀ (j : Nat) (small : j < i), ws[j].covers key = false) :
    searchWindows ws key = some (ws[i].base + (key - ws[i].low)) := by
  induction ws generalizing i with
  | nil => exact absurd inside (Nat.not_lt_zero _)
  | cons w ws ih =>
    cases i with
    | zero => exact if_pos covers
    | succ i =>
      have skip : w.covers key = false := first 0 i.succ_pos
      rw [searchWindows, if_neg (by rw [skip]; exact Bool.false_ne_true)]
      exact ih (Nat.lt_of_succ_lt_succ inside) covers fun j small => first (j + 1) (Nat.succ_lt_succ small)

theorem searchWindows_of_none {ws : List Window} {key : Nat} (none : ∀ w ∈ ws, w.covers key = false) :
    searchWindows ws key = Option.none := by
  induction ws with
  | nil => rfl
  | cons w ws ih =>
    rw [List.forall_mem_cons] at none
    rw [searchWindows, if_neg (by rw [none.1]; exact Bool.false_ne_true)]
    exact ih none.2

theorem Four.getElem_toList {β : Type} (f : Four β) (k : Fin 4) : f.toList[k.val]'k.isLt = f.get k := by
  fin_cases k <;> rfl

/-- The entry of the first window that covers the key, by the window's number. -/
theorem lookupEntry_of_first {T : TableSet} {d : Direction} {key : Nat} {k : Fin 4} (drops : Bool)
    (covers : ((T.windows d).get k).covers key = true)
    (first : ∀ j, j < k → ((T.windows d).get j).covers key = false) :
    lookupEntry T d drops key =
      T.entry (((T.windows d).get k).base + (key - ((T.windows d).get k).low)) := by
  have found := searchWindows_of_first (ws := (T.windows d).toList) (key := key) (i := k.val) k.isLt
    (by rw [Four.getElem_toList]; exact covers)
    fun j small => by
      have skip := first ⟨j, by omega⟩ small
      rwa [← Four.getElem_toList] at skip
  rw [lookupEntry, found, Four.getElem_toList]

theorem lookupEntry_of_none {T : TableSet} {d : Direction} {key : Nat} (drops : Bool)
    (none : ∀ k, ((T.windows d).get k).covers key = false) :
    lookupEntry T d drops key = if drops then .drop else .pass := by
  have missed : searchWindows (T.windows d).toList key = Option.none := searchWindows_of_none fun w hw => by
    obtain ⟨k, rfl⟩ := (Four.mem_toList _ _).mp hw
    exact none k
  rw [lookupEntry, missed]

/-! ### What a telegram is judged (R22, R28, R29) -/

theorem Telegram.key_eq (t : Telegram) : t.key = (t.address.toNat % 64) * 256 + t.function.toNat := by
  rw [Telegram.key, keyOf, Telegram.station, (stationOf_eq_iff t.address _).mp rfl]

section
variable {s : State} {d : Direction} {set : SetId} {t : Telegram} {e : Entry}
  (found : lookupEntry (s.ts.table set) d (s.config.unmatchedDrops d) t.key = e)
include found

theorem State.judge_of_pass (pass : e = .pass) : s.judge d set t = (⟨.pass, true, .forward, false, t.payload⟩, s) := by
  rw [State.judge, found, pass]
  rfl

theorem State.judge_of_drop (drop : e = .drop) : s.judge d set t = (⟨.drop, false, .drop, false, t.payload⟩, s) := by
  rw [State.judge, found, drop]
  rfl

theorem State.judge_of_void {n : Byte} (action : e = .action n) (void : (s.ts.table set).record n.toNat = none) :
    s.judge d set t = (⟨.drop, false, .drop, false, t.payload⟩, s.count .voidAction) := by
  rw [State.judge, found, action]
  dsimp only
  rw [void]
  rfl

theorem State.judge_of_record {n : Byte} {r : ActionRecord} (action : e = .action n)
    (defined : (s.ts.table set).record n.toNat = some r) :
    s.judge d set t =
      (.ofRun n r (runStages (s.ts.table set) r t.attentionFlag t.payload s.ab),
        { s with ab := (runStages (s.ts.table set) r t.attentionFlag t.payload s.ab).bank }) := by
  rw [State.judge, found, action]
  dsimp only
  rw [defined]

end

/-- Settles O33: the search gives the entry, and the entry the judgement. -/
theorem dispatchGoesByTheFirstWindow : Obligations.DispatchGoesByTheFirstWindow := by
  refine ⟨fun _ _ _ _ _ => ⟨rfl, rfl, rfl⟩, ?_⟩
  intro s d set t e T W key covers drops entry
  have coversIff : ∀ k, (W k).covers t.key = true ↔ covers k := fun k => by
    rw [Window.covers_iff, Telegram.key_eq]
  have notCovers : ∀ {k}, ¬covers k → (W k).covers t.key = false := fun h =>
    Bool.not_eq_true _ |>.mp ((coversIff _).not.mpr h)
  have found : lookupEntry T d (s.config.unmatchedDrops d) t.key = e := by
    obtain ⟨k, hit, first, rfl⟩ | ⟨missed, rfl⟩ := entry
    · rw [lookupEntry_of_first _ ((coversIff k).mpr hit) fun j small => notCovers (first j small), Telegram.key_eq]
      obtain ⟨-, low, -⟩ := hit
      exact congrArg T.entry (Nat.add_sub_assoc low _).symm
    · exact lookupEntry_of_none _ fun k => notCovers (missed k)
  exact ⟨State.judge_of_pass found, State.judge_of_drop found, fun n => State.judge_of_void found,
    fun n r => State.judge_of_record found⟩

/-! ### Translate (R37, R40) -/

theorem Span.getElem?_clip (sp : Span) (payload : List Byte) (i : Nat) :
    (sp.clip payload)[i]? = if i < sp.length then payload[sp.offset + i]? else none := by
  rw [Span.clip, List.getElem?_take, List.getElem?_drop]

theorem length_translateSpan (f : Byte → Byte) (sp : Span) (payload : List Byte) :
    (translateSpan f sp payload).length = payload.length := by
  simp only [translateSpan, Span.clip, List.length_append, List.length_map, List.length_take, List.length_drop]
  omega

theorem getElem?_translateSpan (f : Byte → Byte) (sp : Span) (payload : List Byte) (i : Nat) :
    (translateSpan f sp payload)[i]? =
      if sp.offset ≤ i ∧ i < sp.offset + sp.length then payload[i]?.map f else payload[i]? := by
  by_cases inside : i < payload.length
  · have clipped : ((sp.clip payload).map f).length = min sp.length (payload.length - sp.offset) := by
      rw [List.length_map, Span.clip, List.length_take, List.length_drop]
    rw [translateSpan, List.append_assoc]
    by_cases before : i < sp.offset
    · rw [if_neg (by omega), List.getElem?_append_left (by rw [List.length_take]; omega), List.getElem?_take_of_lt before]
    · have start : (payload.take sp.offset).length = sp.offset := by rw [List.length_take]; omega
      rw [List.getElem?_append_right (by omega), start]
      by_cases within : i < sp.offset + sp.length
      · rw [if_pos (by omega), List.getElem?_append_left (by omega), List.getElem?_map, Span.getElem?_clip, if_pos (by omega),
          Nat.add_sub_cancel' (by omega)]
      · rw [if_neg (by omega), List.getElem?_append_right (by omega), clipped, List.drop_drop, List.getElem?_drop]
        congr 1
        omega
  · rw [List.getElem?_eq_none (by rw [length_translateSpan]; omega), List.getElem?_eq_none (Nat.not_lt.mp inside),
      Option.map_none, ite_self]

/-- Settles O35: the span position by position. -/
theorem translateRewritesItsSpan : Obligations.TranslateRewritesItsSpan := by
  refine ⟨fun T r payload => ⟨fun x some => ?_, fun none => ?_⟩, fun sp f payload =>
    ⟨sp.getElem?_clip payload, length_translateSpan f sp payload, getElem?_translateSpan f sp payload⟩⟩
  · rw [runTranslate, some]
  · rw [runTranslate, none]

/-! ### Fields (R42, R43) -/

section
variable {isDelimiter : Byte → Bool}

theorem splitFields_of_delimiter {b : Byte} (h : isDelimiter b = true) (rest : List Byte) :
    splitFields isDelimiter (b :: rest) = [] :: splitFields isDelimiter rest := if_pos h

theorem splitFields_ne_nil (bytes : List Byte) : splitFields isDelimiter bytes ≠ [] := by
  cases bytes with
  | nil => exact List.cons_ne_nil _ _
  | cons b rest =>
    rw [splitFields]
    split
    · exact List.cons_ne_nil _ _
    · split <;> exact List.cons_ne_nil _ _

/-- A byte that is no delimiter belongs to the first field. -/
theorem splitFields_of_member {b : Byte} (h : isDelimiter b = false) {rest field : List Byte} {fields : List (List Byte)}
    (split : splitFields isDelimiter rest = field :: fields) :
    splitFields isDelimiter (b :: rest) = (b :: field) :: fields := by
  rw [splitFields, h, split]
  rfl

theorem splitFields_of_none {bytes : List Byte} (h : ∀ b ∈ bytes, isDelimiter b = false) :
    splitFields isDelimiter bytes = [bytes] := by
  induction bytes with
  | nil => rfl
  | cons b rest ih =>
    rw [List.forall_mem_cons] at h
    exact splitFields_of_member h.1 (ih h.2)

theorem splitFields_of_first {before : List Byte} (h : ∀ x ∈ before, isDelimiter x = false) {b : Byte}
    (hb : isDelimiter b = true) (after : List Byte) :
    splitFields isDelimiter (before ++ b :: after) = before :: splitFields isDelimiter after := by
  induction before with
  | nil => exact splitFields_of_delimiter hb after
  | cons x rest ih =>
    rw [List.forall_mem_cons] at h
    exact splitFields_of_member h.1 (ih h.2)

theorem length_splitFields (bytes : List Byte) :
    (splitFields isDelimiter bytes).length = (bytes.filter isDelimiter).length + 1 := by
  induction bytes with
  | nil => rfl
  | cons b rest ih =>
    cases h : isDelimiter b with
    | true => rw [splitFields_of_delimiter h, List.length_cons, ih, List.filter_cons_of_pos h, List.length_cons]
    | false =>
      obtain ⟨field, fields, split⟩ := List.exists_cons_of_ne_nil (splitFields_ne_nil (isDelimiter := isDelimiter) rest)
      rw [split, List.length_cons] at ih
      rw [splitFields_of_member h split, List.length_cons, ih, List.filter_cons_of_neg (by simp [h])]

end

/-- Settles O36: the split by its recursion, and the reader by the field it finds. -/
theorem fieldsAreSplitAtDelimiters : Obligations.FieldsAreSplitAtDelimiters := by
  refine ⟨fun T r payload x bank => ⟨fun e some => ?_, fun none => ?_⟩, fun isDelimiter =>
    ⟨fun bytes => splitFields_of_none, fun before b after h hb => splitFields_of_first h hb after, length_splitFields,
      fun d n fields => ⟨fun short => ?_, fun empty => ?_, fun field at_n some => ?_⟩⟩⟩
  · rw [runNumeric, some]
  · rw [runNumeric, none]
  · rw [readField, List.getElem?_eq_none short]
  · rw [readField, empty]
  · obtain ⟨b, rest, rfl⟩ := List.exists_cons_of_ne_nil some
    rw [readField, at_n]

/-! ### The repetitions (R46 to R50, R64) -/

section
variable {r : ActionRecord} {i : Nat} {v : Int} {res : StageResults} {bank : Sparse Accumulator}

/-- A repetition leaves the match result and FAIL, and records its value. -/
theorem repetition_records :
    (repetition r i v res bank).1.matched = res.matched ∧ (repetition r i v res bank).1.fail = res.fail
      ∧ (repetition r i v res bank).1.last = some (v + r.adjust.getD 0)
      ∧ ((repetition r i v res bank).1.zero = true ↔ v + r.adjust.getD 0 = 0) := by
  unfold repetition StageResults.record
  dsimp only
  cases r.limit with
  | none => exact ⟨rfl, rfl, rfl, decide_eq_true_iff⟩
  | some l => exact ⟨rfl, rfl, rfl, decide_eq_true_iff⟩

theorem repetition_of_limit {l : LimitStage} (limit : r.limit = some l) :
    ((repetition r i v res bank).1.below = true ↔ res.below = true ∨ v + r.adjust.getD 0 < l.low)
      ∧ ((repetition r i v res bank).1.above = true ↔ res.above = true ∨ l.high < v + r.adjust.getD 0) := by
  simp [repetition, StageResults.record, StageResults.limit, limit]

theorem repetition_of_noLimit (limit : r.limit = none) :
    (repetition r i v res bank).1.below = res.below ∧ (repetition r i v res bank).1.above = res.above := by
  simp [repetition, StageResults.record, limit]

/-- A repetition adds its value to its own accumulator alone. -/
theorem bankGet_repetition (canonical : Sparse.wf accumulatorDefault bank = true) {a : AccumulateStage}
    (accumulate : r.accumulate = some a) (m : Nat) :
    bankGet (repetition r i v res bank).2 m =
      if m = a.base + (if a.step then i else 0) then
        (bankGet bank m).accumulate (v + r.adjust.getD 0) a.weight a.scale
      else bankGet bank m := by
  have target : (if a.step then a.base + i else a.base) = a.base + (if a.step then i else 0) := by
    split <;> rfl
  simp only [repetition, accumulate, target]
  rw [bankGet_bankPut canonical]
  exact ite_congr rfl (fun same => by rw [same]) fun _ => rfl

theorem repetition_of_noAccumulate (accumulate : r.accumulate = none) : (repetition r i v res bank).2 = bank := by
  simp [repetition, accumulate]

end

/-- Settles O38: one step of the recursion, by what the read gives. -/
theorem repetitionsRunUntilAFailure : Obligations.RepetitionsRunUntilAFailure := by
  intro r e fields n i res bank canonical
  refine ⟨?_, fun failed => ?_, rfl⟩
  · intro v read x
    obtain ⟨matched, fail, last, zero⟩ := repetition_records (r := r) (i := i) (v := v) (res := res) (bank := bank)
    refine ⟨(repetition r i v res bank).1, (repetition r i v res bank).2, ?_, matched, fail, last, zero, fun l => repetition_of_limit, repetition_of_noLimit,
      fun a accumulate => bankGet_repetition canonical accumulate, repetition_of_noAccumulate⟩
    rw [repetitions, read]
  · rw [repetitions, failed]

end Sys2Proof.Machine
end

/-! ## Units and their deliveries (R19 to R24, R75 to R86) -/

section
namespace Sys2Proof.Machine

/-! ### The set that a unit holds -/

theorem State.setClassifier_self {s : State} {d : Direction} {c : Classifier} (h : s.classifier d = c) :
    s.setClassifier d c = s := by
  subst h
  cases d <;> rfl

theorem State.setClassifier_setClassifier (s : State) (d : Direction) (c c' : Classifier) :
    (s.setClassifier d c).setClassifier d c' = s.setClassifier d c' := by
  cases d <;> rfl

/-- A drain that waits for a holder goes on waiting. -/
theorem State.checkDrain_of_held {s : State} (held : s.drainHeld) : s.checkDrain = s :=
  if_neg fun ends => Bool.false_ne_true (ends.2.symm.trans (held ends.1))

theorem State.checkDrain_checkDrain (s : State) : s.checkDrain.checkDrain = s.checkDrain := by
  unfold State.checkDrain
  split
  · exact if_neg fun ends => StoreState.noConfusion ends.1
  · rfl

/-- A classifier that holds the edit set or not, as before, changes nothing for the drain. -/
theorem State.checkDrain_setClassifier {s : State} (d : Direction) {c : Classifier}
    (held : c.held = some s.ts.edit ↔ (s.classifier d).held = some s.ts.edit) :
    (s.setClassifier d c).checkDrain = s.checkDrain.setClassifier d c := by
  unfold State.checkDrain
  rw [State.setClassifier_ts, State.isHeld_setClassifier d held]
  split
  · cases d <;> rfl
  · rfl

/-- A classifier at rest and one that works on the live set hold the edit set alike: not at all. -/
theorem State.held_iff_of_idle {s : State} {d : Direction} {u : UnitOfWork} (idle : s.classifier d = .idle)
    (live : u.set = s.ts.live) :
    (Classifier.working u).held = some s.ts.edit ↔ (s.classifier d).held = some s.ts.edit := by
  refine iff_of_false (fun held => ?_) ?_
  · exact s.ts.live.other_ne (live.symm.trans (Option.some.inj held))
  · rw [idle]
    exact fun none => nomatch none

/-! ### The outputs one by one (R23, R24, R83 to R85), from the state in which the classifier does not work yet -/

section
variable {s : State} {d : Direction} {u : UnitOfWork}

/-- With nothing left the unit ends. -/
theorem State.resume_nil (idle : s.classifier d = .idle) : s.resume d u [] = s.checkDrain := by
  rw [State.resume, deliver, State.endUnit, State.setClassifier_setClassifier, State.setClassifier_self idle]

theorem State.resume_copy_of_room {c : MailboxCopy} {outputs : List Output} (room : s.mb.entries.length < 8) :
    s.resume d u (.mailbox c :: outputs) = State.resume { s with mb := s.mb.place c } d u outputs := by
  rw [State.resume, deliver_mailbox_of_room (by rwa [State.setClassifier_mb])]
  cases d <;> rfl

theorem State.resume_field_of_room {e : FsqEntry} {outputs : List Output} (room : s.fsq.length < 16) :
    s.resume d u (.fieldQueue e :: outputs) = State.resume { s with fsq := s.fsq ++ [e] } d u outputs := by
  rw [State.resume, deliver, if_pos (by rw [State.setClassifier_fsq]; exact room)]
  cases d <;> rfl

theorem State.resume_field_of_full {e : FsqEntry} {outputs : List Output} (full : 16 ≤ s.fsq.length) :
    s.resume d u (.fieldQueue e :: outputs) =
      s.setClassifier d (.stalled { u with outputs := .fieldQueue e :: outputs, holdTimer := none }) := by
  rw [State.resume, deliver, if_neg (by rw [State.setClassifier_fsq]; exact Nat.not_lt.mpr full), State.stall,
    State.setClassifier_setClassifier]

/-- A classifier that works waits with nothing for TSQ, as one that is IDLE. -/
theorem State.firstWaiting_setWorking (idle : s.classifier d = .idle) :
    (s.setClassifier d (.working u)).firstWaiting = s.firstWaiting := by
  have same : ∀ p, (s.setClassifier d (.working u)).waitsWith p = s.waitsWith p := fun p => by
    cases d
    · have dc : s.dc = .idle := idle
      cases p with
      | dc => rw [State.waitsWith, State.waitsWith, dc]; rfl
      | _ => rfl
    · have uc : s.uc = .idle := idle
      cases p with
      | uc => rw [State.waitsWith, State.waitsWith, uc]; rfl
      | _ => rfl
  unfold State.firstWaiting
  exact congrArg (producerOrder.findSome? ·) (funext fun p => by rw [same])

theorem State.resume_trunk_of_room {e : TsqEntry} {outputs : List Output} (idle : s.classifier d = .idle)
    (room : s.tp.tsq.length < 16) (noneWaits : s.firstWaiting = none) :
    s.resume d u (.trunkQueue e :: outputs) = (s.enterTsq e).resume d u outputs := by
  rw [State.resume, deliver, if_pos]
  · cases d <;> rfl
  · rw [State.firstWaiting_setWorking idle, State.setClassifier_tp]
    exact ⟨(TrunkPort.tsqHasRoom_iff _).mpr room, noneWaits⟩

theorem State.resume_trunk_of_stall {e : TsqEntry} {outputs : List Output} (idle : s.classifier d = .idle)
    (stalls : 16 ≤ s.tp.tsq.length ∨ s.firstWaiting ≠ none) :
    s.resume d u (.trunkQueue e :: outputs) =
      s.setClassifier d (.stalled { u with outputs := .trunkQueue e :: outputs, holdTimer := none }) := by
  rw [State.resume, deliver, if_neg, State.stall, State.setClassifier_setClassifier]
  rw [State.firstWaiting_setWorking idle, State.setClassifier_tp, TrunkPort.tsqHasRoom_iff]
  rintro ⟨room, noneWaits⟩
  exact stalls.elim (fun full => by omega) fun waits => waits noneWaits

/-! The last output of a unit, where no drain is overdue. -/

theorem State.resume_nil_of_held (idle : s.classifier d = .idle) (held : s.drainHeld) : s.resume d u [] = s :=
  (State.resume_nil idle).trans (State.checkDrain_of_held held)

theorem State.resume_lastField (idle : s.classifier d = .idle) (held : s.drainHeld) {e : FsqEntry} (room : s.fsq.length < 16) :
    s.resume d u [.fieldQueue e] = { s with fsq := s.fsq ++ [e] } :=
  (State.resume_field_of_room room).trans (State.resume_nil_of_held (by cases d <;> exact idle) held)

theorem State.resume_lastTrunk (idle : s.classifier d = .idle) (held : s.drainHeld) {e : TsqEntry}
    (room : s.tp.tsq.length < 16) (noneWaits : s.firstWaiting = none) :
    s.resume d u [.trunkQueue e] = s.enterTsq e :=
  (State.resume_trunk_of_room idle room noneWaits).trans (State.resume_nil_of_held (by cases d <;> exact idle) held)

/-- A sweep whose report has been applied: its item is no longer outstanding (R138). -/
def Sweep.reported (c : Sweep) (silent verdict : Bool) (station : Station) : Sweep :=
  { c.applyOutcome silent verdict station with outstanding := none }

/-- A report to a RUNNING sweep with its item outstanding is applied. -/
theorem State.report_of_outstanding {k : SweepId} (silent verdict : Bool) {index : Nat} {i : SetId}
    (running : (s.ss.get k).state = .running) (outstanding : (s.ss.get k).outstanding = some (index, i)) :
    s.report k silent verdict =
      (s.setSweep k ((s.ss.get k).reported silent verdict (itemStation (s.ts.table i) index))).checkDrain := by
  unfold State.report
  simp only [running, outstanding]
  rfl

/-- A report is applied, and where it is the last output the unit ends (R138). -/
theorem State.resume_report {k : SweepId} {silent verdict : Bool} {index : Nat} {i : SetId} (idle : s.classifier d = .idle)
    (live : u.set = s.ts.live) (running : (s.ss.get k).state = .running)
    (outstanding : (s.ss.get k).outstanding = some (index, i)) :
    s.resume d u [.report k silent verdict] =
      (s.setSweep k ((s.ss.get k).reported silent verdict (itemStation (s.ts.table i) index))).checkDrain := by
  have commutes : ∀ c c', (s.setClassifier d c).setSweep k c' = (s.setSweep k c').setClassifier d c := fun c c' => by
    cases d <;> rfl
  have idle' : ∀ c, (s.setSweep k c).classifier d = .idle := fun c => by cases d <;> exact idle
  have atRest : ∀ t : State, t.classifier d = .idle → t.checkDrain.setClassifier d .idle = t.checkDrain := fun t ht =>
    State.setClassifier_self ((t.checkDrain_classifier d).trans ht)
  rw [State.resume, deliver, deliver, State.report_of_outstanding silent verdict (index := index) (i := i)
    (by rwa [State.setClassifier_ss]) (by rwa [State.setClassifier_ss]), State.setClassifier_ss, State.setClassifier_ts, commutes,
    State.checkDrain_setClassifier d (State.held_iff_of_idle (idle' _) live), State.endUnit,
    State.setClassifier_setClassifier, atRest _ (idle' _), State.checkDrain_checkDrain]

end

end Sys2Proof.Machine
end

/-! ## The takes and the hold timer (R20 to R24, R31 to R33, R75 to R86) -/

section
namespace Sys2Proof.Machine

/-- Settles O43: each output by the room it finds, and the hold timer's expiry by the outputs that are left. -/
theorem copiesArePlacedLostOrHeld : Obligations.CopiesArePlacedLostOrHeld := by
  refine ⟨fun d u c outputs s => ⟨deliver_mailbox_of_room, fun full lose => ?_, fun full hold => ?_⟩, ?_⟩
  · rw [deliver, if_neg ((Mailbox.hasRoom_iff _).not.mpr (Nat.not_lt.mpr full)), if_pos lose]
    rfl
  · rw [deliver, if_neg ((Mailbox.hasRoom_iff _).not.mpr (Nat.not_lt.mpr full)),
      if_neg (by rw [hold]; exact MailboxPolicy.noConfusion)]
    rfl
  · intro s d u c outputs n stalled waits timer lost
    have expired : exec (.holdTimerExpiry d) s = .next (lost.resume d u outputs).serviceTrunk := by
      rw [exec, execHoldTimerExpiry, stalled, Classifier.waitsForMailbox_stalled waits]
      dsimp only
      rw [if_pos (by rw [timer]; rfl), waits]
      rfl
    refine ⟨⟨_, rfl, expired⟩, fun none => ?_, fun e last room => ?_⟩
    · rw [expired, none, State.resume, deliver, State.endUnit, State.setClassifier_setClassifier]
    · rw [expired, last, State.resume_field_of_room (by exact room), State.resume, deliver, State.endUnit,
        State.setClassifier_setClassifier]
      rfl

/-! ### The judgement and the copy, which come first (R22, R23) -/

theorem Disposition.forwards_iff (x : Disposition) : x.forwards = true ↔ x = .forward ∨ x = .forwardCopy := by
  cases x <;> decide

theorem Disposition.copies_iff (x : Disposition) : x.copies = true ↔ x = .copy ∨ x = .forwardCopy := by
  cases x <;> decide

/-- The mailbox after the copy of a telegram, where its disposition asks for one. -/
def Mailbox.placeCopy (m : Mailbox) (d : Direction) (owner : Owner) (t : Telegram) (j : Judged) : Mailbox :=
  if j.disposition.copies then m.place (copyOf d owner t j) else m

/-- With room for it, the copy is placed before the other outputs. -/
theorem State.resume_copyOutput {s : State} {d : Direction} {u : UnitOfWork} {owner : Owner} {t : Telegram} {j : Judged}
    (room : j.disposition.copies = true → s.mb.entries.length < 8) (outputs : List Output) :
    s.resume d u (copyOutput d owner t j ++ outputs) =
      State.resume { s with mb := s.mb.placeCopy d owner t j } d u outputs := by
  unfold copyOutput Mailbox.placeCopy
  split
  · next copies => exact State.resume_copy_of_room (room copies)
  · rfl

/-- All but the mailbox, the accumulators and the counts is as it was: who waits, who holds a set, and every queue. -/
def State.SideFrame (s t : State) : Prop := t = { s with mb := t.mb, ab := t.ab, counters := t.counters }

theorem State.judge_frame (s : State) (d : Direction) (i : SetId) (t : Telegram) : s.SideFrame (s.judge d i t).2 :=
  State.judge_cases (Q := s.SideFrame) rfl rfl fun _ _ _ => rfl

theorem State.judge_mb (s : State) (d : Direction) (i : SetId) (t : Telegram) : (s.judge d i t).2.mb = s.mb :=
  State.judge_cases (Q := fun u => u.mb = s.mb) rfl rfl fun _ _ _ => rfl

namespace State.SideFrame

variable {s t : State} (h : s.SideFrame t)
include h

theorem withMailbox (m : Mailbox) : s.SideFrame { t with mb := m } := by
  rw [State.SideFrame] at h ⊢
  rw [h]

theorem count (k : Counter) : s.SideFrame (t.count k) := by
  rw [State.SideFrame] at h ⊢
  rw [h]
  rfl

theorem firstWaiting : t.firstWaiting = s.firstWaiting := by
  rw [State.SideFrame] at h
  rw [h]
  exact State.firstWaiting_congr rfl rfl rfl rfl rfl fun _ => rfl

theorem drainHeld (held : s.drainHeld) : t.drainHeld := by
  rw [State.SideFrame] at h
  rw [h]
  exact held

theorem classifier (d : Direction) : t.classifier d = s.classifier d := by
  rw [State.SideFrame] at h
  rw [h]
  cases d <;> rfl

theorem tp : t.tp = s.tp := by
  rw [State.SideFrame] at h
  rw [h]

theorem fsq : t.fsq = s.fsq := by
  rw [State.SideFrame] at h
  rw [h]

theorem ts : t.ts = s.ts := by
  rw [State.SideFrame] at h
  rw [h]

theorem ss : t.ss = s.ss := by
  rw [State.SideFrame] at h
  rw [h]

end State.SideFrame

/-! ### DOWNSTREAM_TAKE -/

/-- What a downstream judgement asks for besides the copy (R23, R76, R77). -/
def Judged.onward (j : Judged) (t : Telegram) : List Output :=
  if j.disposition.forwards then [.fieldQueue ⟨{ t with payload := j.payload }, j.urgent⟩]
  else if t.station = broadcastStation then []
  else [.trunkQueue (withheldNotice t.station t.function j.result)]

/-- DOWNSTREAM_TAKE with the judgement made and the copy placed: what is left is one output or none. -/
theorem exec_downstreamTake {s : State} {t : Telegram} {rest : List Telegram} (idle : s.dc = .idle) (head : s.tp.trq = t :: rest)
    {j : Judged} {u : State} (judged : (s.setTrq rest).judge .downstream s.ts.live t = (j, u))
    (room : j.disposition.copies = true → s.mb.entries.length < 8) :
    exec .downstreamTake s = .next (State.serviceTrunk
      (State.resume { u.countWithheld t j with mb := s.mb.placeCopy .downstream .trunk t j } .downstream
        ⟨.request t, s.ts.live, some j.result, j.verdict, downstreamOutputs t j, none⟩ (j.onward t))) := by
  have mailbox : (u.countWithheld t j).mb = s.mb := by
    have kept := (s.setTrq rest).judge_mb .downstream s.ts.live t
    rw [judged] at kept
    exact State.countWithheld_cases (Q := fun v => v.mb = s.mb) t j kept kept
  rw [exec, execDownstreamTake, idle, head]
  simp only [State.downstreamUnit, State.setTrq_ts, judged]
  rw [State.beginUnit]
  dsimp only
  rw [downstreamOutputs, State.resume_copyOutput (by rw [mailbox]; exact room), mailbox]
  rfl

/-- Settles O41: the one output that is left finds room, or stalls the classifier. -/
theorem downstreamTakeDelivers : Obligations.DownstreamTakeDelivers := by
  constructor
  · intro s none
    rw [exec, execDownstreamTake]
    split
    · next idle head => exact absurd none (not_or.mpr ⟨not_not.mpr idle, by rw [head]; exact List.cons_ne_nil _ _⟩)
    · rfl
  intro s t rest idle head held j u forwards copies copy room
  have forwardsIff : j.disposition.forwards = true ↔ forwards := Disposition.forwards_iff _
  have copiesIff : j.disposition.copies = true ↔ copies := Disposition.copies_iff _
  have taken := exec_downstreamTake (j := j) (u := u) idle head rfl fun c => room (copiesIff.mp c)
  let v : State := { u with mb := s.mb.placeCopy .downstream .trunk t j }
  have frame : (s.setTrq rest).SideFrame v := ((s.setTrq rest).judge_frame .downstream s.ts.live t).withMailbox _
  have vIdle : v.classifier .downstream = .idle := (frame.classifier .downstream).trans idle
  have vHeld : v.drainHeld := frame.drainHeld held
  have vTp : v.tp = (s.setTrq rest).tp := frame.tp
  have vTsq : v.tp.tsq = s.tp.tsq := by
    rw [vTp]
    rfl
  have vFsq : v.fsq = s.fsq := frame.fsq
  have forwarded : forwards → exec .downstreamTake s = .next (State.serviceTrunk (v.resume .downstream
      ⟨.request t, s.ts.live, some j.result, j.verdict, downstreamOutputs t j, none⟩
      [.fieldQueue ⟨{ t with payload := j.payload }, j.urgent⟩])) := fun f => by
    rw [taken, Judged.onward, if_pos (forwardsIff.mpr f), State.countWithheld, if_pos (.inl (forwardsIff.mpr f))]
  have withheld : ¬forwards → t.station ≠ broadcastStation → exec .downstreamTake s = .next (State.serviceTrunk
      ((v.count .withheld).resume .downstream ⟨.request t, s.ts.live, some j.result, j.verdict, downstreamOutputs t j, none⟩
        [.trunkQueue (withheldNotice t.station t.function j.result)])) := fun f station => by
    rw [taken, Judged.onward, if_neg (forwardsIff.not.mpr f), if_neg station, State.countWithheld,
      if_neg (not_or.mpr ⟨forwardsIff.not.mpr f, station⟩)]
    rfl
  have notice : withheldNotice t.station t.function j.result
      = ⟨0xE2, [BitVec.ofNat 8 t.station.toNat, t.function] ++ twoBytes j.result.code, false⟩ := by
    rw [withheldNotice, bytesOf_two]
    rfl
  refine ⟨v, rfl, fun c => if_pos (copiesIff.mpr c), fun c => if_neg (copiesIff.not.mpr c), fun f room => ?_, fun f full => ?_,
    fun f broadcast => ?_, fun f station => ⟨fun room noneWaits => ?_, fun stalls => ?_⟩⟩
  · rw [forwarded f, State.resume_lastField vIdle vHeld (by rw [vFsq]; exact room), vFsq]
  · rw [forwarded f, State.resume_field_of_full (by rw [vFsq]; exact full)]
    rfl
  · rw [taken, Judged.onward, if_neg (forwardsIff.not.mpr f), if_pos (by exact broadcast), State.countWithheld,
      if_pos (.inr broadcast)]
    exact congrArg (fun w : State => Host.Outcome.next w.serviceTrunk) (State.resume_nil_of_held vIdle vHeld)
  · rw [withheld f station, State.resume_lastTrunk (by exact vIdle) (by exact vHeld) (by rw [State.count_tp, vTsq]; exact room)
      ((frame.count _).firstWaiting.trans ((s.firstWaiting_withTp _).trans noneWaits)), notice]
    rw [State.enterTsq, State.count_tp, vTsq]
    rfl
  · rw [withheld f station, State.resume_trunk_of_stall (by exact vIdle), notice]
    · rfl
    · rw [State.count_tp, vTsq, (frame.count _).firstWaiting]
      exact stalls.imp_right fun waits => by rwa [State.setTrq, State.firstWaiting_withTp]

end Sys2Proof.Machine
end

/-! ## UPSTREAM_TAKE (R20, R23, R31 to R33, R75, R78, R79) -/

section
namespace Sys2Proof.Machine

/-- The part with the head of FRQ taken. -/
def State.takeOutcome (s : State) (rest : List OutcomeRecord) : State := { s with flc := { s.flc with frq := rest } }

theorem exec_upstreamTake {s : State} {r : OutcomeRecord} {rest : List OutcomeRecord} (idle : s.uc = .idle)
    (head : s.flc.frq = r :: rest) :
    exec .upstreamTake s = .next ((s.takeOutcome rest).upstreamUnit r).serviceTrunk := by
  rw [exec, execUpstreamTake]
  split
  · next taken =>
    obtain ⟨rfl, rfl⟩ := List.cons.inj (head.symm.trans taken)
    rfl
  · next none => exact (none r rest idle head).elim

/-- A reply with the judgement made and the copy placed: what is left goes toward the next block. -/
theorem State.upstreamUnit_of_reply {s : State} {r : OutcomeRecord} {t : Telegram} (reply : r.outcome = .reply t) {j : Judged}
    {u : State} (judged : s.judge .upstream s.ts.live t = (j, u))
    (room : j.disposition.copies = true → s.mb.entries.length < 8) :
    s.upstreamUnit r =
      State.resume { u with mb := s.mb.placeCopy .upstream r.owner t j } .upstream
        ⟨.outcome r, s.ts.live, some j.result, j.verdict,
          copyOutput .upstream r.owner t j ++ replyOutputs r.owner t j, none⟩ (replyOutputs r.owner t j) := by
  have mailbox : u.mb = s.mb := by
    have kept := s.judge_mb .upstream s.ts.live t
    rwa [judged] at kept
  rw [State.upstreamUnit, reply]
  simp only [judged]
  rw [State.beginUnit]
  dsimp only
  rw [State.resume_copyOutput (by rw [mailbox]; exact room), mailbox]

/-- A silence is judged by nobody: it has one output (R31). -/
theorem State.upstreamUnit_of_silence {s : State} {r : OutcomeRecord} {corrupt : Bool}
    (silence : r.outcome = if corrupt then .corrupt else .noReply) :
    s.upstreamUnit r = s.resume .upstream ⟨.outcome r, s.ts.live, none, false, silenceOutputs r corrupt, none⟩
      (silenceOutputs r corrupt) := by
  cases corrupt with
  | false =>
    rw [State.upstreamUnit, silence]
    rfl
  | true =>
    rw [State.upstreamUnit, silence]
    rfl

/-- Settles O42: the output toward the next block, by the owner. -/
theorem upstreamTakeDelivers : Obligations.UpstreamTakeDelivers := by
  constructor
  · intro s none
    rw [exec, execUpstreamTake]
    split
    · next idle head => exact absurd none (not_or.mpr ⟨not_not.mpr idle, by rw [head]; exact List.cons_ne_nil _ _⟩)
    · rfl
  intro s r rest idle head held s1 reported
  have s1Idle : s1.classifier .upstream = .idle := idle
  have s1Held : s1.drainHeld := held
  have s1Waiting : s1.firstWaiting = s.firstWaiting := State.firstWaiting_congr rfl rfl rfl rfl rfl fun _ => rfl
  refine ⟨fun t reply => ?reply, fun reason silence => ?silence⟩
  case reply =>
    intro j u forwards copies copy room
    have forwardsIff : j.disposition.forwards = true ↔ forwards := Disposition.forwards_iff _
    have copiesIff : j.disposition.copies = true ↔ copies := Disposition.copies_iff _
    let v : State := { u with mb := s.mb.placeCopy .upstream r.owner t j }
    have taken : exec .upstreamTake s = .next (State.serviceTrunk (v.resume .upstream
        ⟨.outcome r, s.ts.live, some j.result, j.verdict,
          copyOutput .upstream r.owner t j ++ replyOutputs r.owner t j, none⟩ (replyOutputs r.owner t j))) :=
      (exec_upstreamTake idle head).trans (congrArg (fun w : State => Host.Outcome.next w.serviceTrunk)
        (State.upstreamUnit_of_reply (s := s1) (j := j) (u := u) reply rfl fun c => room (copiesIff.mp c)))
    have frame : s1.SideFrame v := (s1.judge_frame .upstream s.ts.live t).withMailbox _
    have vIdle : v.classifier .upstream = .idle := (frame.classifier .upstream).trans s1Idle
    have vHeld : v.drainHeld := frame.drainHeld s1Held
    have vTp : v.tp = s.tp := frame.tp
    have vSs : v.ss = s.ss := frame.ss
    have vTs : v.ts = s.ts := frame.ts
    refine ⟨v, rfl, fun c => if_pos (copiesIff.mpr c), fun c => if_neg (copiesIff.not.mpr c), fun owner f => ?_,
      fun owner f room noneWaits => ?_, fun owner f stalls => ?_, fun k index i owner running outstanding => ?_⟩
    · rw [taken, owner, replyOutputs, if_neg (forwardsIff.not.mpr f), State.resume_nil_of_held vIdle vHeld]
    · rw [taken, owner, replyOutputs, if_pos (forwardsIff.mpr f), State.resume_lastTrunk vIdle vHeld (by rw [vTp]; exact room)
        ((frame.firstWaiting.trans s1Waiting).trans noneWaits), State.enterTsq, State.setTsq, vTp]
    · rw [taken, owner, replyOutputs, if_pos (forwardsIff.mpr f), State.resume_trunk_of_stall vIdle]
      · rfl
      · rw [vTp, frame.firstWaiting, s1Waiting]
        exact stalls
    · have station : itemStation (v.ts.table i) index = itemStation (s.ts.table i) index := by rw [vTs]
      rw [taken, owner, replyOutputs, State.resume_report vIdle (congrArg TableStore.live vTs).symm (by rw [vSs]; exact running)
        (by rw [vSs]; exact outstanding), State.setSweep, vSs, station]
      rfl
  case silence =>
    intro notice
    obtain ⟨corrupt, outcome, rfl⟩ : ∃ corrupt : Bool, (r.outcome = if corrupt then .corrupt else .noReply)
        ∧ reason = if corrupt then 2 else 1 := by
      obtain ⟨outcome, rfl⟩ | ⟨outcome, rfl⟩ := silence
      · exact ⟨false, outcome, rfl⟩
      · exact ⟨true, outcome, rfl⟩
    have taken : exec .upstreamTake s = .next (State.serviceTrunk (s1.resume .upstream
        ⟨.outcome r, s.ts.live, none, false, silenceOutputs r corrupt, none⟩ (silenceOutputs r corrupt))) :=
      (exec_upstreamTake idle head).trans (congrArg (fun w : State => Host.Outcome.next w.serviceTrunk)
        (State.upstreamUnit_of_silence (s := s1) outcome))
    have silenceNotice : noReplyNotice r.station r.function corrupt = notice := rfl
    refine ⟨fun owner room noneWaits => ?_, fun owner stalls => ?_, fun k index i owner running outstanding => ?_⟩
    · rw [taken, silenceOutputs, owner]
      dsimp only
      rw [silenceNotice, State.resume_lastTrunk s1Idle s1Held room (s1Waiting.trans noneWaits)]
      rfl
    · rw [taken, silenceOutputs, owner]
      dsimp only
      rw [silenceNotice, State.resume_trunk_of_stall s1Idle (by rw [s1Waiting]; exact stalls)]
      rfl
    · rw [taken, silenceOutputs, owner]
      dsimp only
      rw [State.resume_report s1Idle rfl (by exact running) (by exact outstanding)]
      rfl

end Sys2Proof.Machine
end

/-! ## Grants and the transactions they start (R105, R106, R125, R126, R136, R137) -/

section
namespace Sys2Proof.Machine

/-! ### Turns (R125) -/

/-- In a list with strictly growing keys, the first element that passes is the passing one with the least key. -/
theorem find?_eq_some_iff_of_sorted {α : Type} {c : α → Bool} {key : α → Nat} {l : List α}
    (sorted : l.Pairwise fun a b => key a < key b) {k : α} :
    l.find? c = some k ↔ k ∈ l ∧ c k = true ∧ ∀ j ∈ l, c j = true → key k ≤ key j := by
  induction l with
  | nil => exact iff_of_false (fun none => nomatch none) fun h => nomatch h.1
  | cons a l ih =>
    obtain ⟨first, sorted⟩ := List.pairwise_cons.mp sorted
    by_cases passes : c a = true
    · rw [List.find?_cons_of_pos passes]
      constructor
      · rintro ⟨rfl⟩
        refine ⟨List.mem_cons_self, passes, fun j mem _ => ?_⟩
        obtain rfl | mem := List.mem_cons.mp mem
        · exact Nat.le_refl _
        · exact (first j mem).le
      · rintro ⟨mem, -, least⟩
        obtain rfl | mem := List.mem_cons.mp mem
        · rfl
        · exact absurd (least a List.mem_cons_self passes) (Nat.not_le.mpr (first k mem))
    · rw [List.find?_cons_of_neg passes, ih sorted]
      constructor
      · rintro ⟨mem, holds, least⟩
        refine ⟨List.mem_cons_of_mem _ mem, holds, fun j memJ passesJ => ?_⟩
        obtain rfl | memJ := List.mem_cons.mp memJ
        · exact absurd passesJ passes
        · exact least j memJ passesJ
      · rintro ⟨mem, holds, least⟩
        obtain rfl | mem := List.mem_cons.mp mem
        · exact absurd holds passes
        · exact ⟨mem, holds, fun j memJ => least j (List.mem_cons_of_mem _ memJ)⟩

/-- The cyclic order after the pointer goes by the distance from it. -/
theorem cyclicOrder_sorted (pointer : SweepId) :
    [pointer + 1, pointer + 2, pointer + 3, pointer].Pairwise fun a b =>
      (a - pointer - 1).val < (b - pointer - 1).val := by
  revert pointer
  decide

theorem State.nextSweep_eq_some_iff (s : State) (k : SweepId) :
    s.nextSweep = some k ↔ s.sweepCandidate k = true
      ∧ ∀ j, s.sweepCandidate j = true → (k - s.la.pointer - 1).val ≤ (j - s.la.pointer - 1).val := by
  rw [State.nextSweep, find?_eq_some_iff_of_sorted (cyclicOrder_sorted s.la.pointer)]
  exact (and_iff_right (mem_cyclicOrder _ k)).trans
    (and_congr_right fun _ => forall_congr' fun j => imp_iff_right (mem_cyclicOrder _ j))

theorem State.nextSweep_eq_none_iff (s : State) : s.nextSweep = none ↔ ∀ k, s.sweepCandidate k = false := by
  rw [State.nextSweep, List.find?_eq_none]
  exact forall_congr' fun k => (imp_iff_right (mem_cyclicOrder _ k)).trans (by rw [Bool.not_eq_true])

theorem State.grant_sweeps {s : State} {k : SweepId} (next : s.nextSweep = some k) (la : LineArbiter) :
    s.grant .sweeps la = State.grantSweep { s with la := { la with pointer := k } } k := by
  rw [State.grant, next]

theorem State.grantSweep_la (s : State) (k : SweepId) : (s.grantSweep k).la = s.la := by
  unfold State.grantSweep
  dsimp only
  split <;> rfl

theorem State.grantTrunk_la (s : State) : s.grantTrunk.la = s.la := by
  unfold State.grantTrunk
  split
  · rfl
  · rw [State.startTransaction_la, State.fillFieldQueue_la]

theorem exec_lineArbiterDecision_of_none {s : State}
    (noGrant : s.flc.state ≠ .idle ∨ s.fp.change ≠ none ∨ s.decideGrant = none) : exec .lineArbiterDecision s = .next s := by
  rw [exec, execLineArbiterDecision]
  split
  · next free =>
    have none : s.decideGrant = none := by
      obtain busy | change | none := noGrant
      · exact absurd free.1 busy
      · exact absurd free.2 change
      · exact none
    rw [none]
  · rfl

/-- Settles O46: the first candidate after the pointer, by the order of the distances from it. -/
theorem sweepsAreServedInTurn : Obligations.SweepsAreServedInTurn := fun s =>
  ⟨s.nextSweep_eq_some_iff, s.nextSweep_eq_none_iff,
    fun la k next => by rw [State.grant_sweeps next, State.grantSweep_la],
    fun la => State.grantTrunk_la _,
    fun none => exec_lineArbiterDecision_of_none (.inr (.inr none))⟩

/-! ### Grants (R126) -/

theorem exec_lineArbiterDecision_of_grant {s : State} {side : Side} {la : LineArbiter} (idle : s.flc.state = .idle)
    (noChange : s.fp.change = none) (decided : s.decideGrant = some (side, la)) :
    exec .lineArbiterDecision s = .next (s.grant side la).serviceTrunk := by
  rw [exec, execLineArbiterDecision, if_pos ⟨idle, noChange⟩, decided]

theorem State.grantTrunk_of_head {s : State} {e : FsqEntry} {rest : List FsqEntry} (head : s.fsq = e :: rest) :
    s.grantTrunk = (State.fillFieldQueue { s with fsq := rest }).startTransaction .trunk e.telegram.station
      e.telegram.function e.telegram.payload none := by
  rw [State.grantTrunk, head]

theorem State.fillFieldQueue_of_noneWaits {s : State} (noneWaits : s.dc.waitsForFieldQueue = none) :
    s.fillFieldQueue = s := by
  rw [State.fillFieldQueue, noneWaits]

/-- The stalled Downstream Classifier places its last output in the slot that the grant frees, and its unit ends (R24). -/
theorem State.fillFieldQueue_of_stalled {s : State} {u : UnitOfWork} {f : FsqEntry} (stalled : s.dc = .stalled u)
    (outputs : u.outputs = [.fieldQueue f]) (room : s.fsq.length < 16) :
    s.fillFieldQueue = State.checkDrain { s with fsq := s.fsq ++ [f], dc := .idle } := by
  have waits : s.dc.waitsForFieldQueue = some u := by
    rw [stalled, Classifier.waitsForFieldQueue, outputs]
  rw [State.fillFieldQueue, waits]
  dsimp only
  rw [outputs, State.resume_field_of_room room, State.resume, deliver, State.endUnit, State.setClassifier_setClassifier]
  rfl

/-- A sweep grant on a defined item latches the live set and starts the item's transaction. -/
theorem State.grantSweep_of_item {s : State} {k : SweepId} {i : SweepItem}
    (item : (s.ts.table s.ts.live).item (s.ss.get k).cursor = some i) :
    s.grantSweep k = State.startTransaction
      { s with ss := s.ss.set k { s.ss.get k with outstanding := some ((s.ss.get k).cursor, s.ts.live) } }
      (.sweep k) i.station i.function ((s.ts.table s.ts.live).patternRun i.pattern)
      (some ((s.ss.get k).cursor, s.ts.live)) := by
  simp only [State.grantSweep, item]

theorem State.grantSweep_of_noItem {s : State} {k : SweepId}
    (noItem : (s.ts.table s.ts.live).item (s.ss.get k).cursor = none) :
    s.grantSweep k = { s with ss := s.ss.set k ((s.ss.get k).halt .listVoid broadcastStation) } := by
  simp only [State.grantSweep, noItem]

/-- A transaction starts from the field line as it was. -/
theorem State.startTransaction_of_field {s v : State} (flc : v.flc = s.flc) (fp : v.fp = s.fp) (owner : Owner)
    (station : Station) (function : Byte) (payload : List Byte) (item : Option (Nat × SetId)) :
    v.startTransaction owner station function payload item =
      { v with
        flc := { s.flc with
          state := .sending, record := some ⟨owner, station, function, station == 63, false, item⟩
          window := .stopped, settle := none }
        fp := { s.fp with
          framer := .hunt, driverEnable := true
          sending := some (lineBytes (addressByte false false station) function payload) } } := by
  rw [State.startTransaction, flc, fp]
  rfl

/-- Settles O47: a grant's transaction starts after the freed slot of FSQ has gone to the stalled classifier. -/
theorem grantsStartTransactions : Obligations.GrantsStartTransactions := by
  intro s start
  have started : ∀ v : State, v.flc = s.flc → v.fp = s.fp → ∀ owner station function payload item,
      (v.startTransaction owner station function payload item).serviceTrunk = start v owner station function payload item :=
    fun v flc fp owner station function payload item =>
      congrArg State.serviceTrunk (State.startTransaction_of_field flc fp owner station function payload item)
  refine ⟨fun idle noChange => ⟨fun la e rest decided head => ?trunk, fun la k decided next => ?sweep⟩,
    exec_lineArbiterDecision_of_none⟩
  case trunk =>
    intro q
    have granted : exec .lineArbiterDecision s = .next (State.serviceTrunk
        ((State.fillFieldQueue { s with la := la, fsq := rest }).startTransaction .trunk q.station q.function q.payload
          none)) := by
      rw [exec_lineArbiterDecision_of_grant idle noChange decided, State.grant,
        State.grantTrunk_of_head (s := { s with la := la }) head]
    refine ⟨fun noneWaits => ?_, fun u f stalled outputs room => ?_⟩
    · rw [granted, State.fillFieldQueue_of_noneWaits (s := { s with la := la, fsq := rest }) noneWaits,
        started { s with la := la, fsq := rest } rfl rfl]
    · have filled : State.fillFieldQueue { s with la := la, fsq := rest } =
          State.checkDrain { s with la := la, fsq := rest ++ [f], dc := .idle } :=
        State.fillFieldQueue_of_stalled stalled outputs room
      rw [granted, filled, started (State.checkDrain { s with la := la, fsq := rest ++ [f], dc := .idle })
        (State.checkDrain_flc _) (State.checkDrain_fp _)]
  case sweep =>
    intro c v
    have granted : exec .lineArbiterDecision s = .next (v.grantSweep k).serviceTrunk := by
      rw [exec_lineArbiterDecision_of_grant idle noChange decided, State.grant_sweeps next]
    refine ⟨fun i item => ?_, fun noItem => ?_⟩
    · rw [granted, State.grantSweep_of_item (s := v) item, started { v with ss := _ } rfl rfl]
    · rw [granted, State.grantSweep_of_noItem (s := v) noItem, Sweep.halt_eq]
      rfl

end Sys2Proof.Machine
end

/-! ## The course of a transaction, and what starts passes (R106 to R116, R146, R153, R157 to R161) -/

section
namespace Sys2Proof.Machine

/-! ### Settling and the field line change (R17, R115) -/

theorem State.enterSettling_of_pos {s : State} (pos : s.config.settleTime ≠ 0) :
    s.enterSettling =
      { s with flc := { s.flc with state := .settling, window := .stopped, settle := some s.config.settleTime } } :=
  if_neg pos

theorem State.enterSettling_of_zero {s : State} (zero : s.config.settleTime = 0) :
    s.enterSettling = State.takeFieldChange
      { s with flc := { s.flc with state := .idle, record := none, window := .stopped, settle := none } } :=
  if_pos zero

/-- The outcome enters FRQ unless the transaction is abandoned (R113). -/
def State.placeOutcome (s : State) (r : Transaction) (o : FieldOutcome) : State :=
  if r.abandoned then s else { s with flc := { s.flc with frq := s.flc.frq ++ [⟨r.owner, r.station, r.function, o⟩] } }

theorem State.placeOutcome_config (s : State) (r : Transaction) (o : FieldOutcome) :
    (s.placeOutcome r o).config = s.config := by
  unfold State.placeOutcome
  split <;> rfl

theorem State.closeTransaction_of_record {s : State} {r : Transaction} (record : s.flc.record = some r) (o : FieldOutcome) :
    s.closeTransaction o = (s.placeOutcome r o).enterSettling := by
  rw [State.closeTransaction, record, State.placeOutcome]
  dsimp only
  split <;> rfl

theorem State.takeFieldChange_of_waits {s : State} (waits : s.fp.change = none ∨ s.flc.state ≠ .idle ∨ s.fp.framer ≠ .hunt) :
    s.takeFieldChange = s := by
  unfold State.takeFieldChange
  split
  · next l change =>
    refine if_neg fun ⟨idle, hunt⟩ => ?_
    obtain none | busy | begun := waits
    · exact nomatch change.symm.trans none
    · exact busy idle
    · exact begun hunt
  · rfl

theorem State.takeFieldChange_of_due {s : State} {l : LineSettings} (change : s.fp.change = some l)
    (idle : s.flc.state = .idle) (hunt : s.fp.framer = .hunt) :
    s.takeFieldChange = { s with fp := { s.fp with line := l, change := none } } := by
  rw [State.takeFieldChange, change]
  exact if_pos ⟨idle, hunt⟩

/-! ### The commands of the course -/

/-- The driver is released and nothing is sent any more (R106). -/
def State.releaseDriver (s : State) : State := { s with fp := { s.fp with driverEnable := false, sending := none } }

theorem exec_requestSent {s : State} {r : Transaction} (sending : s.flc.state = .sending) (record : s.flc.record = some r) :
    exec .requestSent s =
      if r.broadcast then .next s.releaseDriver.enterSettling
      else .next { s.releaseDriver with
        flc := { s.flc with state := .awaiting, window := .running s.config.replyWindow } } := by
  rw [exec, execRequestSent]
  split
  · next r' _ record' =>
    obtain rfl := Option.some.inj (record.symm.trans record')
    rfl
  · next neither => exact (neither r sending record).elim

theorem exec_replyWindowExpiry_of_awaiting {s : State} {n : Nat} (running : s.flc.window = .running n)
    (awaiting : s.flc.state = .awaiting) :
    exec .replyWindowExpiry s = .next ((s.count .fieldNoReply).closeTransaction .noReply) := by
  rw [exec, execReplyWindowExpiry, running, awaiting]

theorem exec_replyWindowExpiry_of_receiving {s : State} {n : Nat} (running : s.flc.window = .running n)
    (receiving : s.flc.state = .receiving) :
    exec .replyWindowExpiry s = .next { s with flc := { s.flc with window := .expired } } := by
  rw [exec, execReplyWindowExpiry]
  split
  · next awaiting _ => exact nomatch receiving.symm.trans awaiting
  · rfl
  · next neither => exact (neither n receiving running).elim

/-- Settles O48: each command's case, and the two helpers it ends in. -/
theorem transactionsRunTheirCourse : Obligations.TransactionsRunTheirCourse := by
  intro s settling ended released
  refine ⟨fun r sending record => ⟨fun reply => ?_, fun broadcast pos => ?_, fun broadcast zero => ?_⟩,
    fun n running => ⟨exec_replyWindowExpiry_of_awaiting running, exec_replyWindowExpiry_of_receiving running⟩,
    fun r o record => ?_, fun settles => ?_, State.takeFieldChange_of_waits,
    fun l change idle hunt => State.takeFieldChange_of_due change idle hunt⟩
  · rw [exec_requestSent sending record, reply]
    rfl
  · rw [exec_requestSent sending record, broadcast, if_pos rfl, State.enterSettling_of_pos (s := s.releaseDriver) pos]
    rfl
  · rw [exec_requestSent sending record, broadcast, if_pos rfl, State.enterSettling_of_zero (s := s.releaseDriver) zero]
    rfl
  · intro placed
    have config : placed.config = s.config := s.placeOutcome_config r o
    have closed : s.closeTransaction o = placed.enterSettling := State.closeTransaction_of_record record o
    refine ⟨fun pos => ?_, fun zero => ?_⟩
    · have settle : some placed.config.settleTime = some s.config.settleTime := by rw [config]
      rw [closed, State.enterSettling_of_pos (by rwa [config]), settle]
    · rw [closed, State.enterSettling_of_zero (by rwa [config])]
  · rw [exec, execSettleTimerExpiry, if_pos settles]

/-! ### What starts a pass (R146, R153, R159) -/

theorem Sweep.trigger_of_running {c : Sweep} (running : c.state = .running) : c.trigger = { c with rerun := true } :=
  if_pos running

theorem Sweep.trigger_of_notRunning {c : Sweep} (resting : c.state ≠ .running) : c.trigger = c.start := if_neg resting

/-- The assertion is counted and kept, and the slot is pending (R157, R158). -/
def State.assertAttention (s : State) : State := { s with am := ⟨min (s.am.count + 1) 255, true, .asserted⟩ }

theorem exec_attentionAssertion_of_enabled {s : State} (released : s.am.level = .released)
    (enabled : s.config.attentionEnable = true) :
    exec .attentionAssertion s = .next s.assertAttention.triggerBound.serviceTrunk := by
  rw [exec, execAttentionAssertion, released, enabled]
  rfl

theorem exec_attentionAssertion_of_disabled {s : State} (released : s.am.level = .released)
    (disabled : s.config.attentionEnable = false) :
    exec .attentionAssertion s = .next { s with am := { s.am with level := .asserted } } := by
  rw [exec, execAttentionAssertion, released, disabled]
  rfl

theorem exec_attentionAssertion_of_asserted {s : State} (asserted : s.am.level = .asserted) :
    exec .attentionAssertion s = .next s := by
  rw [exec, execAttentionAssertion, asserted]

theorem State.triggerBound_of_none {s : State} (unbound : s.config.binding = none) : s.triggerBound = s := by
  rw [State.triggerBound, unbound]

theorem State.triggerBound_of_some {s : State} {k : SweepId} (bound : s.config.binding = some k) :
    s.triggerBound = s.setSweep k (s.ss.get k).trigger := by
  rw [State.triggerBound, bound]

/-- Settles O53. -/
theorem timersAndAttentionStartPasses : Obligations.TimersAndAttentionStartPasses := by
  intro s
  refine ⟨fun k waits => ?_, fun released enabled => ?_, exec_attentionAssertion_of_disabled,
    exec_attentionAssertion_of_asserted, rfl⟩
  · rw [exec, execPeriodTimerExpiry, if_pos waits]
    rfl
  · intro s1
    have asserted := exec_attentionAssertion_of_enabled released enabled
    refine ⟨fun unbound => ?_, fun k bound => ⟨fun running => ?_, fun resting => ?_⟩⟩
    · rw [asserted, State.triggerBound_of_none (s := s.assertAttention) unbound]
      rfl
    · rw [asserted, State.triggerBound_of_some (s := s.assertAttention) bound,
        Sweep.trigger_of_running (c := s.assertAttention.ss.get k) running]
      rfl
    · rw [asserted, State.triggerBound_of_some (s := s.assertAttention) bound,
        Sweep.trigger_of_notRunning (c := s.assertAttention.ss.get k) resting]
      rfl

end Sys2Proof.Machine
end

/-! ## FIELD_TELEGRAM_END (R7, R108 to R112) -/

section
namespace Sys2Proof.Machine

/-! ### What the field framer reads up to an end (R4, R108) -/

/-- The Field Line Controller's state once a telegram is under way: one that the part begins to read in AWAITING makes it
RECEIVING (R108). -/
def State.receptionState (s : State) : FlcState :=
  if s.fp.framer = .hunt ∧ s.flc.state = .awaiting then .receiving else s.flc.state

/-- The part in the course of a telegram, with the field framer at `f`. -/
def State.reading (s : State) (f : Framer) : State :=
  { s with fp := { s.fp with framer := f }, flc := { s.flc with state := s.receptionState } }

theorem State.receptionState_of_underWay {s : State} (underWay : s.fp.framer ≠ .hunt) : s.receptionState = s.flc.state :=
  if_neg fun opens => underWay opens.1

theorem State.reading_of_underWay {s : State} (underWay : s.fp.framer ≠ .hunt) (f : Framer) :
    s.reading f = s.withFieldFramer f := by
  rw [State.reading, State.receptionState_of_underWay underWay]
  rfl

/-- A character that neither opens nor ends a telegram moves the field framer alone. -/
theorem fieldChar_of_moved {s : State} {c : Rx} {f : Framer} (released : s.fp.driverEnable = false)
    (taken : s.fp.framer.take c = (f, none)) (inside : s.fp.framer ≠ .hunt ∨ f ≠ .address) :
    fieldChar s c = s.withFieldFramer f := by
  unfold fieldChar
  rw [if_neg (by rw [released]; exact Bool.false_ne_true), taken]
  exact if_neg fun opens => inside.elim (fun underWay => underWay opens.1) fun other => other opens.2.1

theorem fieldChar_of_opened {s : State} {c : Rx} (released : s.fp.driverEnable = false) (hunt : s.fp.framer = .hunt)
    (taken : Framer.hunt.take c = (.address, none)) : fieldChar s c = s.reading .address := by
  unfold fieldChar
  rw [if_neg (by rw [released]; exact Bool.false_ne_true), hunt, taken, State.reading, State.receptionState, hunt]
  dsimp only
  rw [State.noteOpening]
  split
  · next opens => rw [if_pos ⟨rfl, opens.2.2⟩]
  · next stays => rw [if_neg fun opens => stays ⟨rfl, rfl, opens.2⟩]

theorem fieldChar_of_ended {s : State} {c : Rx} {e : Ended} (released : s.fp.driverEnable = false)
    (taken : s.fp.framer.take c = (.hunt, some e)) : fieldChar s c = fieldEnded (s.withFieldFramer .hunt) e := by
  unfold fieldChar
  rw [if_neg (by rw [released]; exact Bool.false_ne_true), taken]
  dsimp only
  rw [State.noteOpening, if_neg fun opens => nomatch opens.2.1]
  rfl

/-- Characters that end no telegram and leave one under way. -/
theorem foldl_fieldChar_of_underWay {chars : List Rx} {s : State} (released : s.fp.driverEnable = false)
    (noEnd : (s.fp.framer.takeAll chars).2 = []) (underWay : (s.fp.framer.takeAll chars).1 ≠ .hunt) :
    chars.foldl fieldChar s = s.reading (s.fp.framer.takeAll chars).1 := by
  induction chars generalizing s with
  | nil => exact (State.reading_of_underWay underWay _).symm
  | cons c chars ih =>
    rw [List.foldl_cons]
    by_cases hunt : s.fp.framer = .hunt
    · rcases Framer.take_of_hunt c with taken | taken
      · have stays : fieldChar s c = s := by
          rw [fieldChar_of_moved (f := .hunt) released (by rwa [hunt]) (.inr fun h => nomatch h), ← hunt]
          rfl
        have skipped : s.fp.framer.takeAll (c :: chars) = s.fp.framer.takeAll chars := by
          rw [hunt, Framer.takeAll_cons taken]
        rw [skipped] at noEnd underWay ⊢
        rw [stays]
        exact ih released noEnd underWay
      · have opened : s.fp.framer.takeAll (c :: chars) = Framer.address.takeAll chars := by
          rw [hunt, Framer.takeAll_cons taken]
        rw [opened] at noEnd underWay ⊢
        rw [fieldChar_of_opened released hunt taken, ih (s := s.reading .address) released noEnd underWay,
          State.reading_of_underWay (s := s.reading .address) fun h => nomatch h]
        rfl
    · rcases Framer.take_of_underWay hunt c with ⟨e, taken⟩ | ⟨f, notHunt, -, taken⟩
      · rw [Framer.takeAll, taken] at noEnd
        exact nomatch noEnd
      · rw [Framer.takeAll_cons taken] at noEnd underWay ⊢
        rw [fieldChar_of_moved released taken (.inl hunt), ih (s := s.withFieldFramer f) released noEnd underWay,
          State.reading_of_underWay (s := s.withFieldFramer f) notHunt, State.reading_of_underWay hunt]
        rfl

/-- A character that ends a telegram finds one under way and leaves the framer in HUNT. -/
theorem Framer.take_of_ended {f g : Framer} {c : Rx} {e : Ended} (taken : f.take c = (g, some e)) :
    f ≠ .hunt ∧ g = .hunt := by
  by_cases hunt : f = .hunt
  · subst hunt
    rcases Framer.take_of_hunt c with none | none <;> exact nomatch none.symm.trans taken
  · refine ⟨hunt, ?_⟩
    rcases Framer.take_of_underWay hunt c with ⟨_, ended⟩ | ⟨_, -, -, goesOn⟩
    · exact (congrArg Prod.fst (ended.symm.trans taken)).symm
    · exact nomatch goesOn.symm.trans taken

theorem Framer.take_of_takeAll_singleton {f g : Framer} {c : Rx} {e : Ended} (taken : f.takeAll [c] = (g, [e])) :
    f.take c = (g, some e) := by
  rw [takeAll] at taken
  obtain ⟨after, ends⟩ := Prod.mk.inj taken
  refine Prod.ext after ?_
  cases ended : (f.take c).2 with
  | none => exact nomatch (by rw [ended] at ends; exact ends : ([] : List Ended) = [e])
  | some e' =>
    rw [ended] at ends
    exact congrArg some (List.cons.inj ends).1

/-- The characters of a telegram that ends with the last of them. -/
theorem foldl_fieldChar_of_ended {s : State} {chars : List Rx} {f : Framer} {e : Ended} (released : s.fp.driverEnable = false)
    (taken : s.fp.framer.takeAll chars = (f, [e])) (noEnd : (s.fp.framer.takeAll chars.dropLast).2 = []) :
    chars.foldl fieldChar s = fieldEnded (s.reading .hunt) e := by
  obtain rfl | ⟨init, last, rfl⟩ := chars.eq_nil_or_concat'
  · exact nomatch taken
  rw [List.dropLast_concat] at noEnd
  rw [Framer.takeAll_append, noEnd, List.nil_append] at taken
  have lastTaken := Framer.take_of_takeAll_singleton taken
  obtain ⟨underWay, rfl⟩ := Framer.take_of_ended lastTaken
  rw [List.foldl_append, foldl_fieldChar_of_underWay released noEnd underWay]
  exact fieldChar_of_ended (s := s.reading _) released lastTaken

theorem exec_fieldTelegramEnd_of_ended {s : State} {chars : List Rx} {f : Framer} {e : Ended}
    (released : s.fp.driverEnable = false) (taken : s.fp.framer.takeAll chars = (f, [e]))
    (noEnd : (s.fp.framer.takeAll chars.dropLast).2 = []) :
    exec (.fieldTelegramEnd chars) s = .next (fieldEnded (s.reading .hunt) e).takeFieldChange := by
  rw [exec, execFieldTelegramEnd, foldl_fieldChar_of_ended released taken noEnd]

/-! ### The judgement (R109 to R112) -/

theorem Transaction.answeredBy_iff (r : Transaction) (t : Telegram) :
    r.answeredBy t = true ↔ t.replyFlag = true ∧ t.station = r.station ∧ t.function = r.function := by
  rw [Transaction.answeredBy, Bool.and_eq_true, Bool.and_eq_true, beq_iff_eq, beq_iff_eq, and_assoc]

/-- The part with the Field Line Controller RECEIVING. -/
def State.receivingState (s : State) : State := { s with flc := { s.flc with state := .receiving } }

/-- A transaction closes alike from every state of the Field Line Controller: settling sets it anew. -/
theorem State.closeTransaction_receiving {s : State} {r : Transaction} (record : s.flc.record = some r) (o : FieldOutcome) :
    s.receivingState.closeTransaction o = s.closeTransaction o := by
  rw [State.closeTransaction_of_record (s := s.receivingState) record, State.closeTransaction_of_record record]
  unfold State.placeOutcome
  split
  · rfl
  · rfl

theorem State.judgeReply_of_answer {s : State} {r : Transaction} {t : Telegram} (record : s.flc.record = some r)
    (answer : r.answeredBy t = true) : s.judgeReply (.good t) = s.closeTransaction (.reply t) := by
  simp only [State.judgeReply, record]
  exact if_pos answer

theorem State.judgeReply_of_mismatch {s : State} {r : Transaction} {t : Telegram} (record : s.flc.record = some r)
    (differs : ¬r.answeredBy t = true) : s.judgeReply (.good t) = s.mismatch := by
  simp only [State.judgeReply, record]
  exact if_neg differs

theorem State.judgeReply_of_bad {s : State} {e : Ended} (bad : e = .corrupt ∨ e = .malformed) :
    s.judgeReply e = (s.count .fieldCorrupt).closeTransaction .corrupt := by
  obtain rfl | rfl := bad
  · rfl
  · rfl

theorem State.mismatch_of_expired {s : State} (expired : s.flc.window = .expired) :
    s.mismatch = ((s.count .fieldMismatch).count .fieldNoReply).closeTransaction .noReply :=
  if_pos expired

theorem State.mismatch_of_lasting {s : State} (lasts : s.flc.window ≠ .expired) :
    s.mismatch = { s.count .fieldMismatch with flc := { s.flc with state := .awaiting } } :=
  if_neg lasts

/-- Settles O49: the telegram is judged from the state that its own opening byte has made. -/
theorem fieldTelegramsAreJudged : Obligations.FieldTelegramsAreJudged := by
  intro s chars f e released taken noEnd s1 replyPhase
  have ended := exec_fieldTelegramEnd_of_ended released taken noEnd
  refine ⟨fun r phase record => ?inPhase, fun outside => ?outside⟩
  case inPhase =>
    intro answers
    have receiving : s.receptionState = .receiving := by
      obtain ⟨receiving, underWay⟩ | ⟨awaiting, hunt⟩ := phase
      · rw [State.receptionState_of_underWay underWay, receiving]
      · exact if_pos ⟨hunt, awaiting⟩
    have judged : exec (.fieldTelegramEnd chars) s = .next (s1.receivingState.judgeReply e).takeFieldChange := by
      rw [ended, State.reading, receiving, fieldEnded_of_receiving rfl]
      rfl
    have closes : ∀ v : State, v.flc = s.flc → ∀ o, v.receivingState.closeTransaction o = v.closeTransaction o :=
      fun v flc => State.closeTransaction_receiving (flc ▸ record)
    have awaits : ∀ v : State, v.flc.state = .awaiting → v.takeFieldChange = v := fun v awaiting =>
      State.takeFieldChange_of_waits (.inr (.inl (by rw [awaiting]; exact fun h => nomatch h)))
    rw [judged]
    refine ⟨fun t good answer => ?_, fun t good differs lasts => ?_, fun t good differs expired => ?_, fun bad => ?_⟩
    · rw [good, State.judgeReply_of_answer (s := s1.receivingState) record ((r.answeredBy_iff t).mpr answer), closes s1 rfl]
    · rw [good, State.judgeReply_of_mismatch (s := s1.receivingState) record ((r.answeredBy_iff t).not.mpr differs),
        State.mismatch_of_lasting (s := s1.receivingState) lasts,
        awaits { s1.receivingState.count .fieldMismatch with flc := { s1.receivingState.flc with state := .awaiting } } rfl]
      rfl
    · rw [good, State.judgeReply_of_mismatch (s := s1.receivingState) record ((r.answeredBy_iff t).not.mpr differs),
        State.mismatch_of_expired (s := s1.receivingState) expired]
      exact congrArg (fun v : State => Host.Outcome.next v.takeFieldChange)
        (closes ((s1.count .fieldMismatch).count .fieldNoReply) rfl .noReply)
    · rw [State.judgeReply_of_bad bad]
      exact congrArg (fun v : State => Host.Outcome.next v.takeFieldChange) (closes (s1.count .fieldCorrupt) rfl .corrupt)
  case outside =>
    have stays : s.receptionState = s.flc.state := if_neg fun opens => by
      obtain idle | settling := outside
      · exact nomatch idle.symm.trans opens.2
      · exact nomatch settling.symm.trans opens.2
    have judged : exec (.fieldTelegramEnd chars) s = .next (fieldEnded s1 e).takeFieldChange := by
      rw [ended, State.reading, stays]
    have notReceiving : s1.flc.state ≠ .receiving := fun receiving => by
      obtain idle | settling := outside
      · exact nomatch idle.symm.trans receiving
      · exact nomatch settling.symm.trans receiving
    rw [judged, fieldEnded_of_outside notReceiving]
    refine ⟨fun t good => by rw [good], fun bad => ?_⟩
    obtain rfl | rfl := bad
    · rfl
    · rfl

end Sys2Proof.Machine
end

/-! ## Images read back as written (R178, R179) -/

section
namespace Sys2Proof.Machine

/-! ### Numbers (R178) -/

theorem natOf_append_singleton (l : List Byte) (b : Byte) : natOf (l ++ [b]) = 256 * natOf l + b.toNat := by
  rw [natOf, List.foldl_append]
  rfl

theorem natOf_cons (b : Byte) (l : List Byte) : natOf (b :: l) = b.toNat * 256 ^ l.length + natOf l := by
  induction l using List.reverseRecOn with
  | nil => simp [natOf]
  | append_singleton l c ih =>
    rw [← List.cons_append, natOf_append_singleton, natOf_append_singleton, ih, List.length_append, List.length_singleton,
      pow_succ]
    ring

theorem natOf_lt (l : List Byte) : natOf l < 256 ^ l.length := by
  induction l with
  | nil => decide
  | cons b l ih =>
    have small := b.isLt
    rw [natOf_cons, List.length_cons, pow_succ]
    nlinarith

/-- What a number holds above its `n` bytes is not written. -/
theorem bytesOf_add_mul (n k v : Nat) : bytesOf n (k * 256 ^ n + v) = bytesOf n v := by
  induction n generalizing k with
  | zero => rfl
  | succ n ih =>
    have split : k * 256 ^ (n + 1) + v = (k * 256) * 256 ^ n + v := by ring
    rw [bytesOf, bytesOf, split, ih]
    congr 1
    rw [Nat.add_comm, Nat.add_mul_div_right _ _ (by positivity)]
    apply BitVec.eq_of_toNat_eq
    simp

theorem bytesOf_natOf (l : List Byte) : bytesOf l.length (natOf l) = l := by
  induction l with
  | nil => rfl
  | cons b l ih =>
    rw [List.length_cons, bytesOf, natOf_cons, bytesOf_add_mul, ih, Nat.add_comm,
      Nat.add_mul_div_right _ _ (by positivity), Nat.div_eq_of_lt (natOf_lt l), Nat.zero_add, BitVec.ofNat_toNat]
    simp

theorem signedBytesOf_intOf (l : List Byte) : signedBytesOf l.length (intOf l) = l := by
  have unsigned : (intOf l % 256 ^ l.length).toNat = natOf l := by
    have small := natOf_lt l
    have reduced : intOf l % 256 ^ l.length = natOf l := by
      unfold intOf
      split
      · exact Int.emod_eq_of_lt (by positivity) (by exact_mod_cast small)
      · rw [Int.sub_emod_right]
        exact Int.emod_eq_of_lt (by positivity) (by exact_mod_cast small)
    rw [reduced, Int.toNat_natCast]
  rw [signedBytesOf, unsigned, bytesOf_natOf]

/-! ### Fields of an image -/

section
variable {image : List Byte} {k n : Nat}

theorem length_field (h : k + n ≤ image.length) : (field image k n).length = n := by
  rw [field, List.length_take, List.length_drop]
  omega

theorem bytesOf_fieldNat (h : k + n ≤ image.length) : bytesOf n (fieldNat image k n) = field image k n := by
  have bytes := bytesOf_natOf (field image k n)
  rwa [length_field h] at bytes

theorem signedBytesOf_fieldInt (h : k + n ≤ image.length) : signedBytesOf n (fieldInt image k n) = field image k n := by
  have bytes := signedBytesOf_intOf (field image k n)
  rwa [length_field h] at bytes

theorem bytesOf_num1 (h : k + 1 ≤ image.length) : bytesOf 1 (num1 image k) = field image k 1 := by
  rw [← fieldNat_one h, bytesOf_fieldNat h]

theorem bytesOf_num2 (h : k + 2 ≤ image.length) : bytesOf 2 (num2 image k) = field image k 2 := by
  rw [← fieldNat_two h, bytesOf_fieldNat h]

theorem singleton_fieldByte (h : k + 1 ≤ image.length) : [fieldByte image k] = field image k 1 := by
  rw [field_succ h, field_zero]

/-- Fields that stand side by side make one. -/
theorem field_append (image : List Byte) (k m n : Nat) : field image k m ++ field image (k + m) n = field image k (m + n) := by
  rw [field, field, field, List.take_add, List.drop_drop]

theorem field_eq_replicate (h : k + n ≤ image.length) (zero : fieldZero image k n = true) :
    field image k n = List.replicate n 0 := by
  refine List.eq_replicate_iff.mpr ⟨length_field h, fun b mem => ?_⟩
  simpa using List.all_eq_true.mp zero b mem

theorem field_whole (whole : image.length = n) : field image 0 n = image := by
  rw [← whole]
  exact List.take_length

end

/-! ### Bytes of flags -/

theorem flagByte_getLsbD (b : Byte) :
    flagByte (b.getLsbD 7) (b.getLsbD 6) (b.getLsbD 5) (b.getLsbD 4) (b.getLsbD 3) (b.getLsbD 2) (b.getLsbD 1)
      (b.getLsbD 0) = b := by
  decide +revert

/-- A byte of which the first bit alone may be set. -/
theorem flagByte_seven_of_clear {b : Byte} (clear : b.toNat % 128 = 0) :
    flagByte (b.getLsbD 7) false false false false false false false = b := by
  decide +revert

/-- A byte of which the last bit alone may be set. -/
theorem flagByte_zero_of_clear {b : Byte} (clear : b.toNat ≤ 1) :
    flagByte false false false false false false false (b.toNat == 1) = b := by
  decide +revert

theorem addressByte_stationOf {b : Byte} (reply : b.getLsbD 7 = true) (plain : b.getLsbD 6 = false) :
    addressByte true false (stationOf b) = b := by
  decide +revert

/-! ### Windows, entries and items -/

theorem Window.image_of_ofImage {image : List Byte} {w : Window} (whole : image.length = 7)
    (read : Window.ofImage image = some w) : w.image = image := by
  obtain ⟨refused, spelled⟩ := Window.ofImage_reads whole
  have fine : ¬WindowBad image := fun bad => nomatch read.symm.trans (refused bad)
  obtain rfl := Option.some.inj (read.symm.trans (spelled fine))
  have clear : num1 image 0 % 128 = 0 := not_not.mp fun reserved => fine (.inl reserved)
  rw [Window.image, flagByte_seven_of_clear clear, bytesOf_num2 (by omega), bytesOf_num2 (by omega), bytesOf_num2 (by omega),
    ← List.singleton_append, singleton_fieldByte (by omega), field_append, field_append, field_append]
  exact field_whole whole

theorem Entry.code_of_ofCode {code : Nat} {e : Entry} (read : Entry.ofCode code = some e) : e.code = code := by
  unfold Entry.ofCode at read
  split_ifs at read with action drop pass
  · cases read
    exact Nat.mod_eq_of_lt action
  · cases read
    exact drop.symm
  · cases read
    exact pass.symm

theorem itemImage_of_itemOfImage {image : List Byte} {i : SweepItem} (whole : image.length = 5)
    (read : itemOfImage image = some (some i)) : itemImage (some i) = image := by
  obtain ⟨refused, spelled⟩ := itemOfImage_reads whole
  have fine : ¬ItemBad image := fun bad => nomatch read.symm.trans (refused bad)
  have item : some i = itemSpelled image := Option.some.inj (read.symm.trans (spelled fine))
  rw [itemSpelled] at item
  split at item
  · next defined =>
    obtain rfl := Option.some.inj item
    have plain : (fieldByte image 0).getLsbD 6 = false :=
      Bool.eq_false_iff.mpr fun reserved => fine ⟨defined, .inl reserved⟩
    rw [itemImage, ← stationOf_eq_ofNat, addressByte_stationOf defined plain, patternSpanImage, bytesOf_num2 (by omega),
      bytesOf_num1 (by omega), ← List.singleton_append, singleton_fieldByte (by omega), singleton_fieldByte (by omega),
      field_append, field_append, field_append]
    exact field_whole whole
  · exact nomatch item

/-! ### Delimiter sets -/

theorem memberByte_getLsbD (member : Nat → Bool) {i : Nat} (inside : i < 8) : (memberByte member).getLsbD i = member i := by
  unfold memberByte
  interval_cases i
  all_goals
    generalize member 0 = m0, member 1 = m1, member 2 = m2, member 3 = m3, member 4 = m4, member 5 = m5, member 6 = m6,
      member 7 = m7
    decide +revert

theorem fieldByte_delimitersImage (member : Nat → Bool) {j : Nat} (inside : j < 32) :
    fieldByte (delimitersImage member) j = memberByte fun i => member (8 * j + i) := by
  simp [fieldByte, delimitersImage, inside]

theorem getD_delimitersOfImage (image : List Byte) {v : Nat} (small : v < 256) :
    (delimitersOfImage image).getD v false = (fieldByte image (v / 8)).getLsbD (v % 8) := by
  simp [delimitersOfImage, small]

theorem delimitersImage_delimitersOfImage {image : List Byte} (whole : image.length = 32) :
    delimitersImage (fun v => (delimitersOfImage image).getD v false) = image := by
  refine List.ext_getElem (by simp [delimitersImage, whole]) fun j inside _ => ?_
  have inside : j < 32 := by simpa [delimitersImage] using inside
  have bit : ∀ i, i < 8 → (delimitersOfImage image).getD (8 * j + i) false = (fieldByte image j).getLsbD i := fun i hi => by
    rw [getD_delimitersOfImage image (by omega), show (8 * j + i) / 8 = j by omega, show (8 * j + i) % 8 = i by omega]
  have byte : fieldByte image j = image[j] := List.getD_eq_getElem _ _ _
  simp only [delimitersImage, List.getElem_map, List.getElem_range, memberByte]
  rw [bit 7 (by omega), bit 6 (by omega), bit 5 (by omega), bit 4 (by omega), bit 3 (by omega), bit 2 (by omega),
    bit 1 (by omega), bit 0 (by omega), flagByte_getLsbD, byte]

theorem delimitersOfImage_delimitersImage (member : Nat → Bool) :
    delimitersOfImage (delimitersImage member) = (List.range 256).map member := by
  refine List.map_congr_left fun v small => ?_
  have small := List.mem_range.mp small
  rw [fieldByte_delimitersImage member (by omega), memberByte_getLsbD _ (by omega), Nat.div_add_mod]

end Sys2Proof.Machine
end

/-! ## The images of action records and of the configuration record (R174, R179) -/

section
namespace Sys2Proof.Machine

/-! ### The stages of an action record -/

section
variable {image : List Byte}

theorem MatchStage.image_of_bytes (h : image.length = 35) :
    MatchStage.image ⟨⟨num1 image 5, num1 image 6⟩, ⟨num2 image 7, num1 image 9⟩⟩ = field image 5 5 := by
  rw [MatchStage.image, Span.image, patternSpanImage, bytesOf_num1 (by omega), bytesOf_num1 (by omega),
    bytesOf_num2 (by omega), bytesOf_num1 (by omega), field_append, field_append, field_append]

theorem TranslateStage.image_of_bytes (h : image.length = 35) :
    TranslateStage.image ⟨num1 image 10, ⟨num1 image 11, num1 image 12⟩⟩ = field image 10 3 := by
  rw [TranslateStage.image, Span.image, bytesOf_num1 (by omega), bytesOf_num1 (by omega), bytesOf_num1 (by omega),
    field_append, field_append]

theorem ExtractStage.image_of_bytes (h : image.length = 35) :
    ExtractStage.image ⟨⟨num1 image 13, num1 image 14⟩, num1 image 15, num1 image 16, num1 image 17⟩ =
      Machine.field image 13 5 := by
  rw [ExtractStage.image, Span.image, bytesOf_num1 (by omega), bytesOf_num1 (by omega), bytesOf_num1 (by omega),
    bytesOf_num1 (by omega), bytesOf_num1 (by omega), field_append, field_append, field_append, field_append]

theorem signedBytesOf_signed4 {k : Nat} (h : k + 4 ≤ image.length) : signedBytesOf 4 (signed4 image k) = field image k 4 := by
  rw [← fieldInt_four h, signedBytesOf_fieldInt h]

theorem LimitStage.image_of_bytes (h : image.length = 35) :
    LimitStage.image ⟨signed4 image 22, signed4 image 26⟩ = field image 22 8 := by
  rw [LimitStage.image, signedBytesOf_signed4 (by omega), signedBytesOf_signed4 (by omega), field_append]

theorem AccumulateStage.image_of_bytes (h : image.length = 35) (clear : num1 image 31 ≤ 1) :
    AccumulateStage.image ⟨num1 image 30, num1 image 31 == 1, signed2 image 32, (fieldByte image 34).toInt⟩ =
      field image 30 5 := by
  rw [AccumulateStage.image, flagByte_zero_of_clear clear, bytesOf_num1 (by omega), singleton_fieldByte (by omega),
    ← fieldInt_two (by omega), ← fieldInt_one (by omega), signedBytesOf_fieldInt (by omega),
    signedBytesOf_fieldInt (by omega), field_append, field_append, field_append]

/-- A stage reads back as its field, whether it is present or absent. -/
theorem stageImage_of_readStage {α : Type} {flag lo n : Nat} {read : Option α} {bad : Prop} {v : α} {x : Option α}
    {write : α → List Byte} (reads : Reads read bad v) (h : lo + n ≤ image.length)
    (written : ¬bad → write v = field image lo n)
    (stage : readStage ((fieldByte image 0).getLsbD flag) image lo n read = some x) :
    x.isSome = (fieldByte image 0).getLsbD flag ∧ stageImage n write x = field image lo n := by
  unfold readStage at stage
  split at stage
  · next present =>
    by_cases fault : bad
    · rw [reads.1 fault] at stage
      exact nomatch stage
    · rw [reads.2 fault] at stage
      obtain rfl := Option.some.inj stage
      exact ⟨present.symm, written fault⟩
  · next absent =>
    split at stage
    · next zero =>
      obtain rfl := Option.some.inj stage
      exact ⟨(Bool.eq_false_iff.mpr absent).symm, (field_eq_replicate h zero).symm⟩
    · exact nomatch stage

/-- A record that is read from a defined image has that image. -/
theorem image_of_readRecord {r : ActionRecord} (h : image.length = 35) (defined : Flag image 7)
    (read : readRecord image = some r) : r.image = image := by
  simp only [readRecord, Option.bind_eq_bind, Option.bind_eq_some_iff] at read
  obtain ⟨condition, conditionRead, onTrue, onTrueRead, onFalse, onFalseRead, matching, matchingRead, translate, translateRead,
    extract, extractRead, adjust, adjustRead, limit, limitRead, accumulate, accumulateRead, read⟩ := read
  obtain ⟨matchingFlag, matchingImage⟩ := stageImage_of_readStage (write := MatchStage.image) (readMatch_reads h) (by omega)
    (fun _ => MatchStage.image_of_bytes h) matchingRead
  obtain ⟨translateFlag, translateImage⟩ := stageImage_of_readStage (write := TranslateStage.image) (readTranslate_reads h)
    (by omega) (fun _ => TranslateStage.image_of_bytes h) translateRead
  obtain ⟨extractFlag, extractImage⟩ := stageImage_of_readStage (write := ExtractStage.image) (readExtract_reads h)
    (by omega) (fun _ => ExtractStage.image_of_bytes h) extractRead
  obtain ⟨adjustFlag, adjustImage⟩ := stageImage_of_readStage (write := signedBytesOf 4) (readAdjust_reads h) (by omega)
    (fun _ => signedBytesOf_signed4 (by omega)) adjustRead
  obtain ⟨limitFlag, limitImage⟩ := stageImage_of_readStage (write := LimitStage.image) (readLimit_reads h) (by omega)
    (fun _ => LimitStage.image_of_bytes h) limitRead
  obtain ⟨accumulateFlag, accumulateImage⟩ := stageImage_of_readStage (write := AccumulateStage.image)
    (readAccumulate_reads h) (by omega)
    (fun fine => AccumulateStage.image_of_bytes h (Nat.not_lt.mp fun reserved => fine (.inl reserved))) accumulateRead
  split at read
  · exact nomatch read
  · obtain rfl := Option.some.inj read
    have flags := flagByte_getLsbD (fieldByte image 0)
    rw [show (fieldByte image 0).getLsbD 7 = true from defined] at flags
    simp only [ActionRecord.image, matchingFlag, matchingImage, translateFlag, translateImage, extractFlag, extractImage,
      adjustFlag, adjustImage, limitFlag, limitImage, accumulateFlag, accumulateImage, flags]
    rw [Condition.code_of_ofByte conditionRead, Disposition.code_of_ofByte onTrueRead,
      Disposition.code_of_ofByte onFalseRead, bytesOf_fieldNat (by omega), singleton_fieldByte (by omega),
      ← List.singleton_append, ← List.singleton_append (l := [_]), singleton_fieldByte (by omega),
      singleton_fieldByte (by omega), singleton_fieldByte (by omega)]
    rw [field_append, field_append, field_append, field_append, field_append, field_append, field_append, field_append,
      field_append, field_append]
    exact field_whole h

theorem recordImage_of_recordOfImage {r : ActionRecord} (h : image.length = 35)
    (accepted : recordOfImage image = some (some r)) : recordImage (some r) = image := by
  unfold recordOfImage at accepted
  split at accepted
  · next defined =>
    split at accepted
    · next r' read =>
      split at accepted
      · obtain rfl := Option.some.inj (Option.some.inj accepted)
        exact image_of_readRecord h defined read
      · exact nomatch accepted
    · exact nomatch accepted
  · exact nomatch accepted

end

/-! ### The configuration record (section 11.5, R174) -/

theorem flagByte_of_low {b : Byte} (low : b.toNat ≤ 3) :
    flagByte false false false false false false (b.getLsbD 1) (b.getLsbD 0) = b := by
  decide +revert

/-- The attention byte: the enable bit, four reserved bits and the binding. -/
theorem attentionByte_of_clear {b : Byte} (clear : b.extractLsb' 3 4 = 0) :
    flagByte (b.getLsbD 7) false false false false false false false ||| BitVec.ofNat 8 (b.toNat % 8) = b := by
  decide +revert

theorem bindingCode_of_map {binding : Option SweepId} {n : Nat}
    (bound : binding.map (·.val + 1) = if n = 0 then none else some n) : bindingCode binding = BitVec.ofNat 8 n := by
  cases binding with
  | none =>
    split at bound
    · next zero => rw [zero]; rfl
    · exact nomatch bound
  | some k =>
    split at bound
    · exact nomatch bound
    · rw [← Option.some.inj bound, bindingCode]

theorem policyByte_of_low {b : Byte} (low : b.toNat ≤ 1) : (if b = 1 then 1 else 0 : Byte) = b := by
  decide +revert

theorem ConfigRecord.image_of_ofImage {image : List Byte} {c : ConfigRecord} (whole : image.length = 11)
    (read : ConfigRecord.ofImage image = some c) : c.image = image := by
  have spelled := ConfigRecord.spelled_of_ofImage whole read
  have fine : ¬ConfigBad image := fun bad =>
    nomatch read.symm.trans ((ConfigRecord.ofImage_eq_none_iff whole).mpr bad)
  simp only [ConfigBad, not_or, not_lt, not_not] at fine
  obtain ⟨-, -, -, -, -, -, drops, policy, -, -, clear, -⟩ := fine
  have hold : (if c.policy = .hold then 1 else 0 : Byte) = fieldByte image 7 :=
    (if_congr spelled.policy rfl rfl).trans (policyByte_of_low policy)
  rw [ConfigRecord.image, bindingCode_of_map spelled.binding, hold, spelled.trunkRate, spelled.fieldRate, spelled.gap,
    spelled.replyWindow, spelled.settleTime, spelled.tenureLimit, spelled.downstreamDrops, spelled.upstreamDrops,
    spelled.holdLimit, spelled.attentionEnable, flagByte_of_low drops, attentionByte_of_clear clear,
    bytesOf_num1 (by omega), bytesOf_num1 (by omega), bytesOf_num1 (by omega), bytesOf_num1 (by omega),
    bytesOf_num2 (by omega), singleton_fieldByte (by omega), singleton_fieldByte (by omega), singleton_fieldByte (by omega),
    ← List.singleton_append, singleton_fieldByte (by omega), singleton_fieldByte (by omega)]
  rw [field_append, field_append, field_append, field_append, field_append, field_append, field_append, field_append,
    field_append]
  exact field_whole whole

theorem Rate.ofByte_code (r : Rate) : Rate.ofByte r.code = some r := by
  cases r <;> rfl

theorem flagByte_low_bits (b a : Bool) :
    (flagByte false false false false false false b a).toNat ≤ 3
      ∧ (flagByte false false false false false false b a).getLsbD 0 = a
      ∧ (flagByte false false false false false false b a).getLsbD 1 = b := by
  decide +revert

/-- The attention byte shows its parts. -/
theorem attentionByte_parts (enable : Bool) (binding : Option SweepId) :
    let b := flagByte enable false false false false false false false ||| bindingCode binding
    bindingOf (b.extractLsb' 0 3).toNat = some binding ∧ b.extractLsb' 3 4 = 0 ∧ b.getLsbD 7 = enable := by
  cases binding with
  | none => decide +revert
  | some k => decide +revert

theorem natOf_singleton (n : Nat) (small : n ≤ 255) : natOf [BitVec.ofNat 8 n] = n := by
  rw [natOf, List.foldl_cons, List.foldl_nil, BitVec.toNat_ofNat]
  omega

theorem natOf_twoBytes (n : Nat) (small : n ≤ 65535) : natOf (twoBytes n) = n := by
  rw [twoBytes, natOf_pair, BitVec.toNat_ofNat, BitVec.toNat_ofNat]
  omega

theorem ConfigRecord.ofImage_image {c : ConfigRecord} (h : c.InRange) : ConfigRecord.ofImage c.image = some c := by
  obtain ⟨binding, clear, enable⟩ := attentionByte_parts c.attentionEnable c.binding
  obtain ⟨drops, downstream, upstream⟩ := flagByte_low_bits c.upstreamDrops c.downstreamDrops
  obtain ⟨⟨gapLow, gapHigh⟩, ⟨windowLow, windowHigh⟩, settle, ⟨tenureLow, tenureHigh⟩, holdLow, holdHigh⟩ := h
  have fields : c.image = [c.trunkRate.code, c.fieldRate.code, BitVec.ofNat 8 c.gap, BitVec.ofNat 8 c.replyWindow,
      BitVec.ofNat 8 c.settleTime, BitVec.ofNat 8 c.tenureLimit,
      flagByte false false false false false false c.upstreamDrops c.downstreamDrops,
      if c.policy = .hold then 1 else 0] ++ twoBytes c.holdLimit
      ++ [flagByte c.attentionEnable false false false false false false false ||| bindingCode c.binding] := by
    simp only [ConfigRecord.image, bytesOf_one, bytesOf_two, List.cons_append, List.nil_append]
  have trunkRate : Rate.ofByte (fieldByte c.image 0) = some c.trunkRate := by rw [fields]; exact Rate.ofByte_code _
  have fieldRate : Rate.ofByte (fieldByte c.image 1) = some c.fieldRate := by rw [fields]; exact Rate.ofByte_code _
  have gap : fieldNat c.image 2 1 = c.gap := by rw [fields]; exact natOf_singleton _ gapHigh
  have window : fieldNat c.image 3 1 = c.replyWindow := by rw [fields]; exact natOf_singleton _ windowHigh
  have settleTime : fieldNat c.image 4 1 = c.settleTime := by rw [fields]; exact natOf_singleton _ settle
  have tenure : fieldNat c.image 5 1 = c.tenureLimit := by rw [fields]; exact natOf_singleton _ (by omega)
  have unmatched : fieldByte c.image 6 = flagByte false false false false false false c.upstreamDrops c.downstreamDrops := by
    rw [fields]; rfl
  have policy : fieldNat c.image 7 1 = if c.policy = .hold then 1 else 0 := by
    rw [fields]
    split
    · rfl
    · rfl
  have hold : fieldNat c.image 8 2 = c.holdLimit := by rw [fields]; exact natOf_twoBytes _ (by omega)
  have attention : fieldByte c.image 10 =
      flagByte c.attentionEnable false false false false false false false ||| bindingCode c.binding := by
    rw [fields]; rfl
  simp only [ConfigRecord.ofImage, trunkRate, fieldRate, gap, window, settleTime, tenure, unmatched, policy, hold, attention,
    binding, clear, enable, downstream, upstream, Option.bind_eq_bind, Option.bind_some, ne_eq, not_true, or_false]
  have policyRead : (if (if c.policy = .hold then 1 else 0) = 1 then MailboxPolicy.hold else .lose) = c.policy := by
    cases c.policy <;> rfl
  have policyLow : (if c.policy = .hold then 1 else 0) ≤ 1 := by
    split <;> decide
  rw [policyRead, if_neg (by omega)]
  rfl

/-- Settles O24: each image is put together again from the fields that its reader took. -/
theorem imagesReadBackAsWritten : Obligations.ImagesReadBackAsWritten :=
  ⟨fun _ _ => Window.image_of_ofImage, fun _ _ _ => Entry.code_of_ofCode, fun _ _ => recordImage_of_recordOfImage,
    rfl, rfl, fun _ _ => itemImage_of_itemOfImage, rfl, rfl, fun _ => delimitersImage_delimitersOfImage,
    delimitersOfImage_delimitersImage, fun _ _ => ConfigRecord.image_of_ofImage, fun _ => ConfigRecord.ofImage_image⟩

end Sys2Proof.Machine
end
